-- ==== Sys2Proof/Word.lean ====
section
/-! DEFINITION. The widths of the machine's bit patterns (spec/00_scope.md rules R8, R10). -/

namespace Sys2Proof

/-- A 32-bit pattern: a register of the window, a command word, a memory-port byte address, an accumulator
(R8: ACC_W = 32, ADDR_W = 32; R22). -/
abbrev Word := BitVec 32

/-- A 16-bit pattern: a sample, the gain, an operand of MAC (R8: SAMPLE_W = 16). -/
abbrev Sample := BitVec 16

/-- One byte of the sample memory (R60). -/
abbrev Byte := BitVec 8

end Sys2Proof
end

