-- ==== Sys2Proof/Config.lean ====
section
/-! DEFINITION. What an installation of the unit fixes (R8's open parameters), the answers of the memory port, and
the FREE VALUES: constants with no body, of which nothing can be proved, one for each kind of draw the spec leaves
open (spec/93_implementation_defined.md O1, O2, O3, O4, O6 to O12). -/

namespace Sys2Proof

/-- How the memory system answers one transaction (R13, R207, R252; parameter MEM_RESP of R8). -/
inductive MemResponse where
  /-- The transaction succeeds. -/
  | ok
  /-- The memory system answers with an error: error BUS (R207). -/
  | error
  /-- No response ever comes: the unit stays BUSY with no enabled step (R252). -/
  | silent
deriving DecidableEq, Repr, Inhabited

/-- The parameters one installation fixes (R8). They are plain data in the state, which no step changes. -/
structure Target where
  /-- HAS_VECTOR: whether the target has the chunked capability. -/
  hasVector : Bool
  /-- VLMAX: the largest chunk width CAPIN may answer. -/
  vlmax : Nat
  /-- BASE: the host address of the register window. -/
  base : Nat
  /-- COHERENT_MMP: the memory port and the host see one memory. -/
  coherent : Bool
  /-- The ranges (first byte, length) of the memory port's addresses that are NOT ordinary memory (R65). -/
  devices : List (Nat × Nat)
deriving DecidableEq, Repr

/-- HAS_VECTOR of the machine that `State.reset` describes: an open parameter (R8, O2). -/
opaque Config.hasVector : Bool

/-- VLMAX - 1 of that machine when it has the vector capability: an open parameter in [0, 2^24 - 2] (R8, O2). -/
opaque Config.vlmaxBelow : Fin 16777215

/-- BASE / 0x100 of that machine: an open parameter (R8, O3). -/
opaque Config.baseIndex : Nat

/-- The k-th free draw of the unit and of its readers: the order of a strip's transactions (O6), which y elements
of an abandoned strip were written (O7, O8), the values read from a result that is being computed (O10, O11), ACC
after a host write during MAC (O12). -/
opaque Config.choice : Nat → Nat

/-- The k-th free answer of the chunk-capability input, before it is brought into [1, VLMAX] (O1). -/
opaque Config.chunkAnswer : Nat → Nat

/-- The k-th free answer of the memory system (O4). -/
opaque Config.memResponse : Nat → MemResponse

/-- The parameters of the machine that `State.reset` describes. VLMAX is 1 without the vector capability and in
[1, 2^24 - 1] with it; BASE is a multiple of 0x100; COHERENT_MMP has its default, true (R8). -/
def Config.target : Target :=
  { hasVector := Config.hasVector
    vlmax := if Config.hasVector then Config.vlmaxBelow.val + 1 else 1
    base := 256 * Config.baseIndex
    coherent := true
    devices := [] }

end Sys2Proof
end

