-- ==== Sys2Proof/Syntax.lean ====
section
/-! DEFINITION. The commands (spec/30_encoding.md rules R90, R92): one constructor per row of spec/opcode_table.json,
and the one word format CMDW. -/

namespace Sys2Proof

/-- The six commands. None has an operand in its word: every operand is a register, captured at acceptance
(R90, R95). -/
inductive Instr where
  /-- NOP, R120. -/
  | nop
  /-- MAC, R121. -/
  | mac
  /-- CLAMP, R122. -/
  | clamp
  /-- AXPY_REF, R130. -/
  | axpyRef
  /-- AXPY_VEC, R150. -/
  | axpyVec
  /-- COMPARE, R180. -/
  | compare
deriving DecidableEq, Repr

/-- The format CMDW: RSV in bits 31:4, OP in bits 3:0 (R90). -/
structure Cmdw where
  rsv : BitVec 28
  op : BitVec 4
deriving DecidableEq, Repr

/-- OP of each command (R92). -/
def Instr.opcode : Instr → BitVec 4
  | .nop => 0x0
  | .mac => 0x1
  | .clamp => 0x2
  | .axpyRef => 0x3
  | .axpyVec => 0x4
  | .compare => 0x5

/-- The commands that run over buffers in memory (R61, R200). -/
def Instr.isMemory : Instr → Bool
  | .nop => false
  | .mac => false
  | .clamp => false
  | .axpyRef => true
  | .axpyVec => true
  | .compare => true

/-- The commands that write the buffer y (R61). -/
def Instr.writesY : Instr → Bool
  | .nop => false
  | .mac => false
  | .clamp => false
  | .axpyRef => true
  | .axpyVec => true
  | .compare => false

end Sys2Proof
end

