-- ==== Sys2Proof/WellFormed.lean ====
section
/-! DEFINITION. What makes a command word and an installation well formed: each check refuses some term, as
Sys2Proof/Tests/Slice0.lean shows. -/

namespace Sys2Proof

/-- RSV must be 0 (R90). -/
def Cmdw.reservedZero (c : Cmdw) : Bool :=
  c.rsv == 0

/-- OP must be assigned: 0x6 to 0xF are reserved (R92). -/
def Cmdw.opcodeAssigned (c : Cmdw) : Bool :=
  decide (c.op ≤ 5#4)

/-- A legal command word in the format CMDW (R90, R92, R94). -/
def Cmdw.wf (c : Cmdw) : Bool :=
  c.reservedZero && c.opcodeAssigned

/-- The format fields of a command's word. -/
def Instr.cmdw (i : Instr) : Cmdw :=
  { rsv := 0, op := i.opcode }

/-- A command is well formed when its word is legal; no command has an operand to check (R90, R95). -/
def Instr.wf (i : Instr) : Bool :=
  i.cmdw.wf

/-- 1 <= VLMAX <= 2^24 - 1 (R8). -/
def Target.vlmaxInRange (t : Target) : Bool :=
  decide (1 ≤ t.vlmax) && decide (t.vlmax ≤ 16777215)

/-- VLMAX is 1 when HAS_VECTOR is false (R8). -/
def Target.vlmaxOneWithoutVector (t : Target) : Bool :=
  t.hasVector || t.vlmax == 1

/-- BASE is a multiple of 0x100 (R8). -/
def Target.baseAligned (t : Target) : Bool :=
  t.base % 256 == 0

/-- The parameters an installation of the unit may have (R8). -/
def Target.wf (t : Target) : Bool :=
  t.vlmaxInRange && t.vlmaxOneWithoutVector && t.baseAligned

end Sys2Proof
end

