-- ==== Sys2Proof/Decode.lean ====
section
/-! DEFINITION. The decoder of the words written to CMD, total on every 32-bit word (R93), and after it the encoder
and the opcode map as a table of masks (R92). The register port moves whole 32-bit words and has no byte order of its
own (spec/92_eei_decisions.md D4), so the decoder reads one word. -/

namespace Sys2Proof

/-- Why a word is illegal (R93, R94). Both reasons end in the same error ILLEGAL. -/
inductive IllegalReason where
  /-- Bits 31:4 are not all 0. -/
  | reservedBits (rsv : BitVec 28)
  /-- OP is in 0x6 to 0xF. -/
  | reservedOpcode (op : BitVec 4)
deriving DecidableEq, Repr

/-- What the decoder says of a word. -/
inductive Decoded where
  | command (i : Instr)
  | illegal (why : IllegalReason)
deriving DecidableEq, Repr

/-- A word cut into the fields of CMDW (R90). -/
def cmdwOf (w : Word) : Cmdw :=
  { rsv := w.extractLsb' 4 28, op := w.extractLsb' 0 4 }

/-- The command an opcode selects (R93). -/
def commandOf (op : BitVec 4) : Decoded :=
  match op.toNat with
  | 0 => .command .nop
  | 1 => .command .mac
  | 2 => .command .clamp
  | 3 => .command .axpyRef
  | 4 => .command .axpyVec
  | 5 => .command .compare
  | _ => .illegal (.reservedOpcode op)

/-- R93: the decoder, total on every word. Word 0, with OP = 0 and RSV = 0, is NOP. -/
def decode (w : Word) : Decoded :=
  if (cmdwOf w).reservedZero then commandOf (cmdwOf w).op
  else .illegal (.reservedBits (cmdwOf w).rsv)

/-- The word of a command (R92): RSV = 0 above OP. -/
def encode (i : Instr) : Word :=
  i.cmdw.rsv ++ i.cmdw.op

/-- A row of the opcode map: a word w selects `op` when w AND mask = pattern (R92). -/
structure OpRow where
  pattern : Word
  mask : Word
  op : Instr
deriving DecidableEq, Repr

/-- The opcode map of R92. -/
def opcodeTable : List OpRow :=
  [ { pattern := 0x00000000, mask := 0xFFFFFFFF, op := .nop },
    { pattern := 0x00000001, mask := 0xFFFFFFFF, op := .mac },
    { pattern := 0x00000002, mask := 0xFFFFFFFF, op := .clamp },
    { pattern := 0x00000003, mask := 0xFFFFFFFF, op := .axpyRef },
    { pattern := 0x00000004, mask := 0xFFFFFFFF, op := .axpyVec },
    { pattern := 0x00000005, mask := 0xFFFFFFFF, op := .compare } ]

/-- Whether a word selects a row (R92). -/
def OpRow.selects (row : OpRow) (w : Word) : Bool :=
  w &&& row.mask == row.pattern

/-- The instruction the decoder reads from a command word numbered as spec/opcode_table.json numbers its bits. A
command is one 32-bit word (R91); the bits above `nbits` are 0. -/
def decodeTableWord (nbits w : Nat) : Option Instr :=
  match decode (BitVec.ofNat 32 (w % 2 ^ nbits)) with
  | .command i => some i
  | .illegal _ => none

end Sys2Proof
end

