-- ==== Sys2Proof/Machine/State.lean ====
section
/-! DEFINITION. The machine's state as plain data: the registers, the controller, the command snapshot and the strip
state (spec/10_state.md), the sample memory, and, as data of the model's own, what surrounds the unit: the events to
come on its ports, the answers CAPIN and the memory system will give, and the free draws. -/

namespace Sys2Proof.Machine

/-- The registers of the window (R22). `reserved` stands for every offset from 0x44 to 0xFC. -/
inductive Reg where
  | id | cap | ctrl | cmd | status | n | alpha | aAddr | bAddr | yAddr | opa | opb | acc | res | maxdiff | processed
  | erraddr | reserved
deriving DecidableEq, Repr

/-- Where a host access points: an offset in the window (R6), or a host address, which the window's BASE turns into an
offset (R22). -/
inductive Place where
  | offset (o : Nat)
  | address (a : Nat)
deriving DecidableEq, Repr

/-- One step of the unit's surroundings, or a turn given to the unit (R7). -/
inductive Event where
  /-- The `rst` input is asserted (R230). -/
  | reset
  /-- The unit takes its next own step: a memory transaction, a CAPIN answer or a completion (R7). -/
  | unit
  /-- A host write of `size` bytes on the register port (R6, R23). -/
  | regWrite (place : Place) (size : Nat) (word : Word)
  /-- A host read of `size` bytes on the register port (R6, R23). -/
  | regRead (place : Place) (size : Nat)
  /-- The script line WAIT: read STATUS until BUSY = 0 (R103). -/
  | wait
  /-- The host looks at the `irq` line (R210, R240). -/
  | irqSample
  /-- The host's own 16-bit store to the sample memory, MEMW16 (R104). -/
  | memWrite (addr : Nat) (value : Sample)
  /-- The host's own 16-bit load from the sample memory, MEMR16 (R104). -/
  | memRead (addr : Nat)
deriving DecidableEq, Repr

/-- Whose step a command's meaning takes: the host's, which issues it by a CMD write (R200), or the unit's, which runs
the accepted command one step further (R43). -/
inductive Agent where
  | host
  | unit
deriving DecidableEq, Repr

/-- Values that come from outside, in the order they come: those listed, then `rest` for ever, or, where `rest` is
none, the free values of Config. -/
structure Feed (α : Type) where
  listed : List α
  rest : Option α
deriving DecidableEq, Repr

/-- A feed about which nothing is known: every value is free. -/
def Feed.free {α : Type} : Feed α :=
  { listed := [], rest := none }

/-- STATUS, offset 0x10 (R28). Its reserved bits 31:9 read 0, so they are no part of it. -/
structure Status where
  /-- Bit 0. -/
  busy : Bool
  /-- Bit 1. -/
  done : Bool
  /-- Bit 2. -/
  err : Bool
  /-- Bit 3. -/
  ovr : Bool
  /-- Bits 7:4. -/
  errcode : BitVec 4
  /-- Bit 8. -/
  equal : Bool
deriving DecidableEq, Repr

/-- The errors of R202. Code 0 is no error, and codes 6 to 15 are never produced. -/
inductive ErrCode where
  | illegal | align | range | overlap | bus
deriving DecidableEq, Repr

/-- The command snapshot captured at acceptance (R42). `op` is one of the commands that are accepted. -/
structure Snapshot where
  op : Instr
  n : Word
  alpha : Sample
  aAddr : Word
  bAddr : Word
  yAddr : Word
  opa : Sample
  opb : Sample
  acc : Word
deriving DecidableEq, Repr

/-- One lane of the open strip (R44): the samples read so far (`b` is test for COMPARE) and whether y was stored. -/
structure Lane where
  a : Option Sample
  b : Option Sample
  stored : Bool
  /-- The model's own: what the element of y held just before it was stored, none until then (R209, R230 may leave it
  so). -/
  before : Option Sample
deriving DecidableEq, Repr

/-- The controller in state BUSY (R43): the snapshot and the strip state of R44. The elements completed, p, are
PROCESSED itself, and the chunk c is the number of lanes (no lane: no strip is open). -/
structure Run where
  snap : Snapshot
  lanes : List Lane
  /-- COMPARE's running equality flag over the strips completed (R44, R209). -/
  eq : Bool
  /-- COMPARE's running maximum over the strips completed (R44, R209). -/
  md : Nat
  /-- The model's own: the largest PROCESSED a host has read during this command (R48). -/
  seen : Nat
  /-- The model's own: a host has written ACC while this MAC or CLAMP runs (R49, D29). -/
  accRaced : Bool
  /-- The model's own: a transaction of this command will never get a response (R252). -/
  hung : Bool
deriving DecidableEq, Repr

/-- The sample memory (R60): address and byte pairs in the canonical form of `Memory.wf` in Machine/Memory.lean. -/
abbrev Memory := List Host.Cell

/-- Why the machine stops. -/
inductive Fault where
  /-- An access outside the sample memory's addresses 0 to 2^32 - 1 (R60). Raised by a host's own 16-bit access that
  runs past the end, and by a unit transaction only in states no run reaches (R62). Safe: the spec gives no effect. -/
  | noSuchAddress
  /-- A host WAIT on a unit that is stuck, which never ends (R252). Safe. -/
  | hang
  /-- The unit is BUSY, a transaction will never get a response, and no event is left that could reset it (R252).
  Safe. -/
  | stuck
deriving DecidableEq, Repr

/-- Why a step has no meaning. -/
inductive Refusal where
  /-- An instruction without a meaning; exec's arms raise it, and none does. Safe. -/
  | notModelled (mnemonic : String)
  /-- A register-port access that is not 32 bits wide at a word-aligned offset of the window (R23, O13). Raised by
  host accesses. Safe. -/
  | portAccess
  /-- A host access to a borrowed buffer before the completion is observed (R70 item 4, R241, O14). Raised by host
  accesses to the sample memory. Safe. -/
  | race
  /-- A CAPIN answer of 0 or above VLMAX: not a target of this unit (R161, O17). Raised by AXPY_VEC and COMPARE.
  Safe. -/
  | capinContract
  /-- A buffer placed in memory that is not ordinary (R65, O15). Raised by the issue of a command that runs over
  memory, and by a transaction of the unit only in states no run reaches. Safe. -/
  | notOrdinaryMemory
  /-- A transaction of the unit on a platform where the memory port and the host do not see one memory (COHERENT_MMP
  false: R74, O5). Raised by the commands that run over memory. Safe. -/
  | notCoherent
deriving DecidableEq, Repr

/-- The state. ID, CAP, CMD and `irq` are functions of it (R24, R25, R27, R46): Machine/Regs.lean reads them. -/
structure State where
  /-- CTRL.IE, bit 0 of CTRL; its other bits read 0 (R26). -/
  ctrlIE : Bool
  /-- STATUS (R28). -/
  status : Status
  /-- N (R30). -/
  n : Word
  /-- ALPHA (R31). -/
  alpha : Sample
  /-- A_ADDR (R32). -/
  aAddr : Word
  /-- B_ADDR (R33). -/
  bAddr : Word
  /-- Y_ADDR (R34). -/
  yAddr : Word
  /-- OPA (R35). -/
  opa : Sample
  /-- OPB (R36). -/
  opb : Sample
  /-- ACC (R37). -/
  acc : Word
  /-- RES (R38). -/
  res : Sample
  /-- MAXDIFF (R39). -/
  maxdiff : Word
  /-- PROCESSED (R40), which is also p of the strip state (R44). -/
  processed : Word
  /-- ERRADDR (R41). -/
  erraddr : Word
  /-- The controller: none is IDLE, some is BUSY with the snapshot and the strip state (R42, R43, R44). -/
  run : Option Run
  /-- The installation's parameters (R8), which CAP shows (R25). No step changes them. -/
  target : Target
  /-- The sample memory behind the memory port (R60), which is the platform's (R231). -/
  mem : Memory
  /-- The model's own: the commands whose buffers are still borrowed, until a host observes their completion
  (R70 item 4). -/
  loans : List Snapshot
  /-- The model's own: the events to come, first to happen first. Empty: the unit's own steps go on by themselves. -/
  agenda : List Event
  /-- The model's own: whose step the meaning of a command takes; `step` sets it. -/
  turn : Agent
  /-- The model's own: the answers CAPIN will give (R151). -/
  capin : Feed Nat
  /-- The model's own: the responses the memory system will give (MEM_RESP, R8). -/
  responses : Feed MemResponse
  /-- The model's own: the draws to come (`any` of R14). -/
  choices : Feed Nat
  /-- The model's own: how many values were drawn; it numbers the free values of Config. -/
  drawn : Nat
  /-- The model's own: the word the last host read returned (R6). -/
  rdata : Word
deriving DecidableEq, Repr

/-- STATUS after reset: 0x00000000 (R47). -/
def Status.reset : Status :=
  { busy := false, done := false, err := false, ovr := false, errcode := 0, equal := false }

/-- The machine right after power-on reset (R47) on an installation with the parameters `t`, with nothing listed in
memory, no event to come and every draw free. -/
def State.resetOn (t : Target) : State :=
  { ctrlIE := false
    status := Status.reset
    n := 0
    alpha := 0
    aAddr := 0
    bAddr := 0
    yAddr := 0
    opa := 0
    opb := 0
    acc := 0
    res := 0
    maxdiff := 0
    processed := 0
    erraddr := 0
    run := none
    target := t
    mem := []
    loans := []
    agenda := []
    turn := .host
    capin := Feed.free
    responses := Feed.free
    choices := Feed.free
    drawn := 0
    rdata := 0 }

/-- The machine right after reset (R47, R232), its open parameters those of Config (R8). -/
def State.reset : State :=
  State.resetOn Config.target

end Sys2Proof.Machine
end

