-- ==== Sys2Proof/Machine/Memory.lean ====
section
/-! DEFINITION. The sample memory (spec/20_memory.md): bytes by address in one canonical form, and the little-endian
16-bit samples built from them. -/

namespace Sys2Proof.Machine

/-- How many byte addresses the sample memory has: 0 to 2^32 - 1 (R60). -/
def Memory.size : Nat := 4294967296

/-- What an address that the list does not hold reads as. DESIGN CHOICE, unsafe: notes/assumptions/1.md (the contents
at power-on are the platform's, R231). -/
def Memory.fill : Byte := 0

/-- The canonical form: addresses strictly rising, all inside the address space, no listed byte equal to the fill. -/
abbrev Memory.wf (m : Memory) : Prop :=
  m.Pairwise (fun c d => c.1 < d.1) ∧ ∀ c ∈ m, c.1 < Memory.size ∧ c.2 ≠ Memory.fill

/-- The byte at an address. -/
def Memory.readByte : Memory → Nat → Byte
  | [], _ => Memory.fill
  | (k, u) :: rest, a => if k = a then u else Memory.readByte rest a

/-- The list with the byte at `a` made `v`, in canonical form. -/
def Memory.put : Memory → Nat → Byte → Memory
  | [], a, v => if v = Memory.fill then [] else [(a, v)]
  | (k, u) :: rest, a, v =>
    if a < k then
      if v = Memory.fill then (k, u) :: rest else (a, v) :: (k, u) :: rest
    else if a = k then
      if v = Memory.fill then rest else (a, v) :: rest
    else (k, u) :: Memory.put rest a v

/-- Store one byte. An address outside the address space holds nothing; the accesses below fault on it. -/
def Memory.writeByte (m : Memory) (a : Nat) (v : Byte) : Memory :=
  if a < Memory.size then Memory.put m a v else m

/-- R63: the sample at byte address e, little-endian. -/
def Memory.readSample (m : Memory) (e : Nat) : Sample :=
  Memory.readByte m (e + 1) ++ Memory.readByte m e

/-- R63: store the sample v at byte address e, little-endian. -/
def Memory.writeSample (m : Memory) (e : Nat) (v : Sample) : Memory :=
  Memory.writeByte (Memory.writeByte m e (v.extractLsb' 0 8)) (e + 1) (v.extractLsb' 8 8)

/-- The two bytes of a 16-bit access at e exist (R60, R62). -/
def Memory.holds (e : Nat) : Bool :=
  decide (e + 2 ≤ Memory.size)

/-- R13, R62: the byte address of element i of a buffer at base, with no wrap. -/
def elem (base : Word) (i : Nat) : Nat :=
  base.toNat + 2 * i

/-- Two byte ranges, each a first byte and a length, have a byte in common. -/
def rangesMeet (x lx y ly : Nat) : Bool :=
  decide (x < y + ly) && decide (y < x + lx) && decide (0 < lx) && decide (0 < ly)

/-- R65: the two bytes at e are ordinary memory on this platform. -/
def ordinary (t : Target) (e : Nat) : Bool :=
  t.devices.all fun d => !rangesMeet e 2 d.1 d.2

end Sys2Proof.Machine
end

