-- ==== Sys2Proof/Machine/Operands.lean ====
section
/-! DEFINITION. How bit patterns are read as numbers and numbers written as bit patterns (spec/00_scope.md rule R11),
the operands of each command (spec/30_encoding.md rule R95), and the three arithmetic functions of
spec/40_saturation_mac.md that every command uses. -/

namespace Sys2Proof.Machine

/-- R11: the signed value of a 16-bit pattern. -/
def s16 (p : Sample) : Int := p.toInt

/-- R11: the signed value of a 32-bit pattern. -/
def s32 (p : Word) : Int := p.toInt

/-- R11: the 16-bit pattern of v mod 2^16. -/
def u16 (v : Int) : Sample := BitVec.ofInt 16 v

/-- R11: the 32-bit pattern of v mod 2^32. -/
def u32 (v : Int) : Word := BitVec.ofInt 32 v

/-- R11: the 32-bit pattern of a signed 16-bit value; the source's `widen`. -/
def sext32 (p : Sample) : Word := p.signExtend 32

/-- R11: a 16-bit pattern with bits 31:16 zero. -/
def zext32 (p : Sample) : Word := p.setWidth 32

/-- R110: the saturation to the Sample range. -/
def clamp (v : Int) : Int :=
  if v > 32767 then 32767
  else if v < -32768 then -32768
  else v

/-- R112: the same saturation in hardware terms, on a 32-bit pattern. -/
def clip (p : Word) : Sample :=
  if p.extractLsb' 15 17 = 0#17 ∨ p.extractLsb' 15 17 = BitVec.allOnes 17 then p.extractLsb' 0 16
  else if p.getLsbD 31 = false then 0x7FFF#16
  else 0x8000#16

/-- R113: one element's accumulator, an exact integer. -/
def mac (a alpha b : Sample) : Int :=
  s16 a + s16 alpha * s16 b

/-- R113 in hardware terms: each operand is sign-extended to 32 bits, multiplied and added in 32 bits. It never leaves
the signed 32-bit range (R114), so its signed value is `mac`. -/
def macPattern (a alpha b : Sample) : Word :=
  sext32 a + sext32 alpha * sext32 b

/-- R116: the distance of two samples, an exact natural number. -/
def absdiff (r t : Sample) : Nat :=
  (s16 r - s16 t).natAbs

/-- What MAC writes to RES and an AXPY command to y[i] (R121, R132, R158). -/
def axpySample (a alpha b : Sample) : Sample :=
  u16 (clamp (mac a alpha b))

/-- The registers' operands as a command captures them (R42, R200). -/
def capture (op : Instr) (s : State) : Snapshot :=
  { op := op, n := s.n, alpha := s.alpha, aAddr := s.aAddr, bAddr := s.bAddr, yAddr := s.yAddr, opa := s.opa,
    opb := s.opb, acc := s.acc }

/-- The bases of the buffers a command uses, in the order A, B, Y (R204). COMPARE does not use Y (R180). -/
def Snapshot.bases (k : Snapshot) : List Word :=
  if k.op.writesY then [k.aAddr, k.bAddr, k.yAddr] else [k.aAddr, k.bAddr]

/-- The length in bytes of each buffer (R62). -/
def Snapshot.bytes (k : Snapshot) : Nat :=
  2 * k.n.toNat

/-- R65: no buffer of a memory command lies in a range that is not ordinary memory. With n = 0 no buffer has a byte. -/
def Snapshot.inOrdinaryMemory (k : Snapshot) (t : Target) : Bool :=
  !k.op.isMemory || t.devices.all fun d => k.bases.all fun b => !rangesMeet b.toNat k.bytes d.1 d.2

/-- Whether a 16-bit host store at e touches a buffer the command has borrowed (R70 item 4, R241). -/
def Snapshot.lendsForWrite (k : Snapshot) (e : Nat) : Bool :=
  k.bases.any fun b => rangesMeet e 2 b.toNat k.bytes

/-- Whether a 16-bit host load at e touches the output the command has borrowed (R70 item 4, R241). -/
def Snapshot.lendsForRead (k : Snapshot) (e : Nat) : Bool :=
  k.op.writesY && rangesMeet e 2 k.yAddr.toNat k.bytes

end Sys2Proof.Machine
end

