-- ==== Sys2Proof/Machine/Flags.lean ====
section
/-! DEFINITION. STATUS: its word, every way its flags are set and cleared (spec/10_state.md rules R28, R29;
spec/60_exceptions.md rules R200 to R202), and the interrupt line (R210). -/

namespace Sys2Proof.Machine

/-- R202: the codes of the errors. -/
def ErrCode.code : ErrCode → BitVec 4
  | .illegal => 1
  | .align => 2
  | .range => 3
  | .overlap => 4
  | .bus => 5

/-- R28: STATUS as the host reads it, with the reserved bits 31:9 zero. -/
def Status.word (f : Status) : Word :=
  0#23 ++ BitVec.ofBool f.equal ++ f.errcode ++ BitVec.ofBool f.ovr ++ BitVec.ofBool f.err ++ BitVec.ofBool f.done
    ++ BitVec.ofBool f.busy

/-- R29: a host write of the word w to STATUS. -/
def Status.acknowledge (f : Status) (w : Word) : Status :=
  { f with
    done := f.done && !w.getLsbD 1
    err := f.err && !w.getLsbD 2
    errcode := if w.getLsbD 2 then 0 else f.errcode
    ovr := f.ovr && !w.getLsbD 3 }

/-- R200: STATUS at the acceptance of a command. OVR and EQUAL stay. -/
def Status.accepted (f : Status) : Status :=
  { f with busy := true, done := false, err := false, errcode := 0 }

/-- R201: STATUS at a completion without error. -/
def Status.completed (f : Status) : Status :=
  { f with busy := false, done := true }

/-- R202: STATUS at a completion with an error, at issue or while the command runs. -/
def Status.failed (f : Status) (code : ErrCode) : Status :=
  { f with busy := false, done := true, err := true, errcode := code.code }

/-- R200: STATUS when a nonzero command word is dropped. -/
def Status.overrun (f : Status) : Status :=
  { f with ovr := true }

/-- R210: the interrupt line, `irq = CTRL.IE and STATUS.DONE`. -/
def State.irq (s : State) : Bool :=
  s.ctrlIE && s.status.done

end Sys2Proof.Machine
end

