-- ==== Sys2Proof/Machine/Ops.lean ====
section
/-! DEFINITION. The operations the commands share: the draws, the checks at issue, acceptance, completion, ending with
an error (this unit's trap entry, R211) and its clearing (R212), the strip-mining controller, and reset. -/

namespace Sys2Proof.Machine

/-- What a meaning answers. -/
abbrev Result := Host.Outcome State Fault Refusal

/-! ## Draws (R14) -/

/-- The value a feed gives now: the first listed, else its constant, else the free value. -/
def Feed.now {α : Type} (f : Feed α) (free : α) : α :=
  match f.listed with
  | v :: _ => v
  | [] =>
    match f.rest with
    | some v => v
    | none => free

/-- The feed after its value was taken. -/
def Feed.advance {α : Type} (f : Feed α) : Feed α :=
  { f with listed := f.listed.tail }

/-- R14: the next draw of the unit or of a host read. -/
def State.choice (s : State) : Nat :=
  s.choices.now (Config.choice s.drawn)

/-- After a draw. -/
def State.afterChoice (s : State) : State :=
  { s with choices := s.choices.advance, drawn := s.drawn + 1 }

/-- The memory system's response to the next transaction (R207; MEM_RESP, R8). -/
def State.response (s : State) : MemResponse :=
  s.responses.now (Config.memResponse s.drawn)

/-- After a response. -/
def State.afterResponse (s : State) : State :=
  { s with responses := s.responses.advance, drawn := s.drawn + 1 }

/-- R151: CAPIN's next answer. A free answer is one of a target of this unit, in [1, VLMAX] (R161). CAPIN always
answers: DESIGN CHOICE, unsafe, notes/assumptions/21.md (no rule says what happens where it does not, R251). -/
def State.chunkAnswer (s : State) : Nat :=
  s.capin.now (1 + Config.chunkAnswer s.drawn % s.target.vlmax)

/-- After a CAPIN answer. -/
def State.afterChunk (s : State) : State :=
  { s with capin := s.capin.advance, drawn := s.drawn + 1 }

/-! ## Completion and errors -/

/-- R201, `complete()`: the running command ends without error; the controller is IDLE and the snapshot discarded. -/
def State.complete (s : State) : State :=
  { s with status := s.status.completed, run := none }

/-- R202, `raise Error(code, addr)`: TAKING AN EXCEPTION on this unit (R211). The code goes to STATUS.ERRCODE and the
address, where the error has one (R203), to ERRADDR; the controller is IDLE. The issue-time errors of R200 have the
same effect, BUSY being 0 already. -/
def State.raiseError (s : State) (code : ErrCode) (addr : Option Word) : State :=
  { s with status := s.status.failed code, erraddr := addr.getD s.erraddr, run := none }

/-- R212: the return from an error is the host's write to STATUS (R29), which clears DONE, ERR and ERRCODE. -/
def State.acknowledge (s : State) (w : Word) : State :=
  { s with status := s.status.acknowledge w }

/-- R200: a nonzero command word written while BUSY is dropped and sets OVR. -/
def State.overrun (s : State) : State :=
  { s with status := s.status.overrun }

/-! ## The checks at issue -/

/-- R204: the first used base, in the order A, B, Y, that is odd. -/
def Snapshot.alignError (k : Snapshot) : Option Word :=
  k.bases.find? fun b => b.getLsbD 0

/-- R205: the first used base, in the order A, B, Y, whose buffer runs past 2^32. -/
def Snapshot.rangeError (k : Snapshot) : Option Word :=
  k.bases.find? fun b => decide (Memory.size < b.toNat + k.bytes)

/-- R206: the ranges of length L at y and x intersect at a different base. -/
def partialOverlap (y x L : Nat) : Bool :=
  decide (y < x + L) && decide (x < y + L) && decide (y ≠ x)

/-- R206: y partly overlaps a or b; the error records y. -/
def Snapshot.overlapError (k : Snapshot) : Option Word :=
  if k.op.writesY && (partialOverlap k.yAddr.toNat k.aAddr.toNat k.bytes
      || partialOverlap k.yAddr.toNat k.bAddr.toNat k.bytes) then some k.yAddr
  else none

/-- R208: the first check that fails, in the order ALIGN, RANGE, OVERLAP. -/
def Snapshot.firstError (k : Snapshot) : Option (ErrCode × Word) :=
  match k.alignError with
  | some b => some (.align, b)
  | none =>
    match k.rangeError with
    | some b => some (.range, b)
    | none =>
      match k.overlapError with
      | some y => some (.overlap, y)
      | none => none

/-- R200: the checks of an issue, made only for a memory command with n > 0. -/
def Snapshot.issueError (k : Snapshot) : Option (ErrCode × Word) :=
  if k.op.isMemory && k.n != 0 then k.firstError else none

/-! ## Issue and acceptance -/

/-- The controller's state right after acceptance (R42, R44): no strip is open, and COMPARE's running report is that of
no element (R180). -/
def Run.start (k : Snapshot) : Run :=
  { snap := k, lanes := [], eq := true, md := 0, seen := 0, accRaced := false, hung := false }

/-- R200: acceptance. A memory command sets PROCESSED to 0 and borrows its buffers (R70 item 4). -/
def State.accept (s : State) (k : Snapshot) : State :=
  { s with
    status := s.status.accepted
    run := some (Run.start k)
    processed := if k.op.isMemory then 0 else s.processed
    loans := if k.op.isMemory then k :: s.loans else s.loans }

/-- R200: the issue step of a command other than NOP. A command that would be accepted with a buffer placed in memory
that is not ordinary is refused (R65). -/
def State.issue (s : State) (op : Instr) : Result :=
  if s.status.busy then .next s.overrun
  else
    match (capture op s).issueError with
    | some (code, addr) => .next (s.raiseError code (some addr))
    | none =>
      if (capture op s).inOrdinaryMemory s.target then .next (s.accept (capture op s)) else .refused .notOrdinaryMemory

/-- R200: the issue step of an illegal word. -/
def State.issueIllegal (s : State) : State :=
  if s.status.busy then s.overrun else s.raiseError .illegal none

/-- The unit's own step of the command `op`, where that command is running and no transaction of it waits for ever for
its response; otherwise none of its steps is enabled and nothing happens (R225, R252). -/
def State.unitStep (s : State) (op : Instr) (body : Run → Result) : Result :=
  match s.run with
  | none => .next s
  | some r => if r.snap.op = op ∧ r.hung = false then body r else .next s

/-! ## The strip-mining controller (R44, R68, R130, R150, R180) -/

/-- One memory transaction of the open strip. -/
inductive Xact where
  | readA (lane : Nat)
  | readB (lane : Nat)
  | store (lane : Nat)
deriving DecidableEq, Repr

/-- A lane of a strip just opened. -/
def Lane.fresh : Lane :=
  { a := none, b := none, stored := false, before := none }

/-- R61: nothing is left to do in a lane; `writes` says whether the command writes y. -/
def Lane.finished (writes : Bool) (l : Lane) : Bool :=
  l.a.isSome && l.b.isSome && (!writes || l.stored)

/-- R68 item 2: the transactions of one lane that may be made next. Each is made once (R61), and the store follows
both reads. -/
def Lane.enabled (writes : Bool) (j : Nat) (l : Lane) : List Xact :=
  (if l.a.isNone then [Xact.readA j] else []) ++ (if l.b.isNone then [Xact.readB j] else [])
    ++ (if writes && l.a.isSome && l.b.isSome && !l.stored then [Xact.store j] else [])

/-- R68 item 3: the transactions of a strip, from lane j on, that may be made next, in no fixed order. -/
def enabledFrom (writes : Bool) : Nat → List Lane → List Xact
  | _, [] => []
  | j, l :: ls => l.enabled writes j ++ enabledFrom writes (j + 1) ls

/-- The transaction a draw picks among those enabled (R68 item 3, O6). -/
def pick (xs : List Xact) (draw : Nat) : Option Xact :=
  xs[draw % xs.length]?

/-- The lane of a transaction. -/
def Xact.lane : Xact → Nat
  | .readA j => j
  | .readB j => j
  | .store j => j

/-- R61: the byte address of a transaction of the strip whose first element is p. -/
def Xact.address (x : Xact) (k : Snapshot) (p : Nat) : Nat :=
  match x with
  | .readA j => elem k.aAddr (p + j)
  | .readB j => elem k.bAddr (p + j)
  | .store j => elem k.yAddr (p + j)

/-- The sample an AXPY lane stores once both its samples are there (R152, R153). -/
def Lane.result (alpha : Sample) (l : Lane) : Option Sample :=
  match l.a, l.b with
  | some a, some b => some (axpySample a alpha b)
  | _, _ => none

/-- The lane after one of its transactions succeeded; `v` is the sample at the transaction's address before it: what a
read returned, or what a store overwrote. -/
def Lane.after (x : Xact) (v : Sample) (l : Lane) : Lane :=
  match x with
  | .readA _ => { l with a := some v }
  | .readB _ => { l with b := some v }
  | .store _ => { l with stored := true, before := some v }

/-- R44: open a strip of c lanes. -/
def Run.openStrip (r : Run) (c : Nat) : Run :=
  { r with lanes := List.replicate c Lane.fresh }

/-- The lanes' part of COMPARE's report (R180): the flag and the maximum, taken on over one strip's lanes. -/
def laneReport : List Lane → Bool → Nat → Bool × Nat
  | [], eq, md => (eq, md)
  | l :: ls, eq, md =>
    match l.a, l.b with
    | some a, some b => laneReport ls (eq && a == b) (max md (absdiff a b))
    | _, _ => laneReport ls eq md

/-- R157, R180: the strip is complete. PROCESSED grows by its chunk, and COMPARE's running report takes in its lanes
(R209: only completed strips count). -/
def State.closeStrip (s : State) (r : Run) : State :=
  { s with
    processed := BitVec.ofNat 32 (s.processed.toNat + r.lanes.length)
    run := some
      { r with
        lanes := []
        eq := if r.snap.op = .compare then (laneReport r.lanes r.eq r.md).1 else r.eq
        md := if r.snap.op = .compare then (laneReport r.lanes r.eq r.md).2 else r.md } }

/-- Keep the open strip, or close it when every lane is finished. -/
def State.settleStrip (s : State) (r : Run) : State :=
  if r.lanes.all (Lane.finished r.snap.op.writesY) then s.closeStrip r else { s with run := some r }

/-- R209, R230: the memory with one lane's element of y abandoned: its result, or what it held before. -/
def Lane.abandon (l : Lane) (m : Memory) (e : Nat) (result : Sample) (new : Bool) : Memory :=
  if new then Memory.writeSample m e result
  else
    match l.before with
    | some old => Memory.writeSample m e old
    | none => m

/-- R209, R230: what an abandoned strip leaves in y. Each element whose two samples were read, stored or not, holds its
result or what it held before, by a draw (notes/assumptions/9.md). -/
def spillFrom (k : Snapshot) (p : Nat) : Nat → List Lane → State → State
  | _, [], s => s
  | j, l :: ls, s =>
    match l.result k.alpha with
    | some v =>
      spillFrom k p (j + 1) ls
        { s.afterChoice with mem := l.abandon s.mem (elem k.yAddr (p + j)) v (decide (s.choice % 2 = 1)) }
    | none => spillFrom k p (j + 1) ls s

/-- R209, R230: the memory effect of abandoning the command; a command that does not write y has none. -/
def State.spill (s : State) (r : Run) : State :=
  if r.snap.op.writesY then spillFrom r.snap s.processed.toNat 0 r.lanes s else s

/-- R180, R209: COMPARE's report goes to STATUS.EQUAL and MAXDIFF. -/
def State.report (s : State) (r : Run) : State :=
  { s with status := { s.status with equal := r.eq }, maxdiff := BitVec.ofNat 32 r.md }

/-- R207, R209: a transaction at `addr` failed. PROCESSED stays at the strips completed; COMPARE reports over them. -/
def State.busError (s : State) (r : Run) (addr : Nat) : State :=
  if r.snap.op = .compare then (s.report r).raiseError .bus (some (BitVec.ofNat 32 addr))
  else (s.spill r).raiseError .bus (some (BitVec.ofNat 32 addr))

/-- R252: a transaction that never gets a response. -/
def State.hang (s : State) (r : Run) : State :=
  { s with run := some { r with hung := true } }

/-- A transaction that succeeds (R13, R63): a read takes the sample at its address, a store writes the lane's
result. -/
def State.perform (s : State) (r : Run) (x : Xact) : State :=
  let e := x.address r.snap s.processed.toNat
  let lanes := r.lanes.modify x.lane (Lane.after x (Memory.readSample s.mem e))
  match x with
  | .readA _ => s.settleStrip { r with lanes := lanes }
  | .readB _ => s.settleStrip { r with lanes := lanes }
  | .store j =>
    match r.lanes[j]?.bind (Lane.result r.snap.alpha) with
    | some v => { s with mem := Memory.writeSample s.mem e v }.settleStrip { r with lanes := lanes }
    | none => { s with run := some r }

/-- What the memory system's response makes of a transaction (R207, R252). An error response ends the command in the step
of the failed transaction, with no completion step of its own: DESIGN CHOICE, notes/assumptions/15.md. -/
def State.respond (s : State) (r : Run) (x : Xact) : State :=
  match s.response with
  | .ok => s.afterResponse.perform r x
  | .error => s.afterResponse.busError r (x.address r.snap s.processed.toNat)
  | .silent => s.afterResponse.hang r

/-- One memory transaction of the open strip (R7, R68). The memory must be ordinary (R65) and coherent (R74). -/
def State.transact (s : State) (r : Run) : Result :=
  match pick (enabledFrom r.snap.op.writesY 0 r.lanes) s.choice with
  | none => .next (s.afterChoice.settleStrip r)
  | some x =>
    if !Memory.holds (x.address r.snap s.processed.toNat) then .fault .noSuchAddress
    else if !s.target.coherent then .refused .notCoherent
    else if !ordinary s.target (x.address r.snap s.processed.toNat) then .refused .notOrdinaryMemory
    else .next (s.afterChoice.respond r x)

/-- R151: CAPIN's answer opens a strip of min(w, n - p) lanes; an answer outside [1, VLMAX] is refused (R161). -/
def State.takeChunk (s : State) (r : Run) : Result :=
  if 1 ≤ s.chunkAnswer ∧ s.chunkAnswer ≤ s.target.vlmax then
    .next { s.afterChunk with
      run := some (r.openStrip (min s.chunkAnswer (r.snap.n.toNat - s.processed.toNat))) }
  else .refused .capinContract

/-- One step of a memory command (R7): a transaction of the open strip; or, where elements are left, CAPIN's answer
(`vector`), or without CAPIN the first transaction of a strip of one element (R131, R156); or the completion. -/
def State.stripStep (s : State) (r : Run) (vector : Bool) (finish : Run → State) : Result :=
  match r.lanes with
  | _ :: _ => s.transact r
  | [] =>
    if s.processed.toNat < r.snap.n.toNat then
      if vector then s.takeChunk r else s.transact (r.openStrip 1)
    else .next (finish r)

/-! ## Reset -/

/-- The open strip's memory effect when the command is abandoned by reset (R230). -/
def State.abandon (s : State) : State :=
  match s.run with
  | some r => s.spill r
  | none => s

/-- R230, R231: reset. Every register takes its reset value, the controller is IDLE, and memory keeps its contents but
for what the abandoned strip leaves; the loans end with the command. What surrounds the unit stays. -/
def State.resetUnit (s : State) : State :=
  { State.resetOn s.target with
    mem := s.abandon.mem
    agenda := s.agenda
    turn := s.turn
    capin := s.capin
    responses := s.responses
    choices := s.abandon.choices
    drawn := s.abandon.drawn
    rdata := s.rdata }

end Sys2Proof.Machine
end

