-- ==== Sys2Proof/Machine/Comparator.lean ====
section
/-! DEFINITION. The command COMPARE (spec/43_verification.md). -/

namespace Sys2Proof.Machine

/-- R180: COMPARE, its issue and its own steps. Its completion writes STATUS.EQUAL and MAXDIFF. -/
def execCompare (s : State) : Result :=
  match s.turn with
  | .host => s.issue .compare
  | .unit => s.unitStep .compare fun r => s.stripStep r s.target.hasVector fun r => (s.report r).complete

end Sys2Proof.Machine
end

