-- ==== Sys2Proof/Machine/ReferenceKernel.lean ====
section
/-! DEFINITION. The command AXPY_REF (spec/41_reference_kernel.md). -/

namespace Sys2Proof.Machine

/-- R130, R131: AXPY_REF, its issue and its own steps, in strips of one element that take no CAPIN answer. -/
def execAxpyRef (s : State) : Result :=
  match s.turn with
  | .host => s.issue .axpyRef
  | .unit => s.unitStep .axpyRef fun r => s.stripStep r false fun _ => s.complete

end Sys2Proof.Machine
end

