-- ==== Sys2Proof/Machine/RegisterCommands.lean ====
section
/-! DEFINITION. The commands that use no memory: NOP, MAC, CLAMP (spec/40_saturation_mac.md section 3). -/

namespace Sys2Proof.Machine

/-- R120: NOP does nothing, busy or idle. -/
def execNop (s : State) : Result :=
  .next s

/-- R121: MAC's steps between acceptance and completion, and the completion. R49: after a host write to ACC during the
command, the value ACC is left at is a free one. -/
def State.finishMac (s : State) (r : Run) : State :=
  if r.accRaced then
    { s.afterChoice with
      acc := BitVec.ofNat 32 s.choice
      res := axpySample r.snap.opa r.snap.alpha r.snap.opb }.complete
  else
    { s with
      acc := u32 (mac r.snap.opa r.snap.alpha r.snap.opb)
      res := axpySample r.snap.opa r.snap.alpha r.snap.opb }.complete

/-- R121: MAC, its issue and its own step. -/
def execMac (s : State) : Result :=
  match s.turn with
  | .host => s.issue .mac
  | .unit => s.unitStep .mac fun r => .next (s.finishMac r)

/-- R122: CLAMP's result and its completion. D29: after a host write to ACC during the command, the value ACC is left at
is a free one (notes/assumptions/6.md). -/
def State.finishClamp (s : State) (r : Run) : State :=
  if r.accRaced then
    { s.afterChoice with
      acc := BitVec.ofNat 32 s.choice
      res := u16 (clamp (s32 r.snap.acc)) }.complete
  else { s with res := u16 (clamp (s32 r.snap.acc)) }.complete

/-- R122: CLAMP, its issue and its own step. -/
def execClamp (s : State) : Result :=
  match s.turn with
  | .host => s.issue .clamp
  | .unit => s.unitStep .clamp fun r => .next (s.finishClamp r)

end Sys2Proof.Machine
end

