-- ==== Sys2Proof/Machine/VectorKernel.lean ====
section
/-! DEFINITION. The command AXPY_VEC (spec/42_vector_kernel.md). -/

namespace Sys2Proof.Machine

/-- R150, R151, R156: AXPY_VEC, its issue and its own steps, in strips as wide as CAPIN answers, or of one element
without the vector capability. -/
def execAxpyVec (s : State) : Result :=
  match s.turn with
  | .host => s.issue .axpyVec
  | .unit => s.unitStep .axpyVec fun r => s.stripStep r s.target.hasVector fun _ => s.complete

end Sys2Proof.Machine
end

