-- ==== Sys2Proof/Machine/Dispatch.lean ====
section
/-! DEFINITION. The meaning of each command, one arm per constructor of Instr. -/

namespace Sys2Proof.Machine

def exec (i : Instr) (s : State) : Host.Outcome State Fault Refusal :=
  match i with
  | .nop => Sys2Proof.Machine.execNop s
  | .mac => Sys2Proof.Machine.execMac s
  | .clamp => Sys2Proof.Machine.execClamp s
  | .axpyRef => Sys2Proof.Machine.execAxpyRef s
  | .axpyVec => Sys2Proof.Machine.execAxpyVec s
  | .compare => Sys2Proof.Machine.execCompare s

end Sys2Proof.Machine
end

