-- ==== Sys2Proof/Machine/Regs.lean ====
section
/-! DEFINITION. The register window (spec/10_state.md rules R22 to R41, R48, R49): where each register is, and the one
operation that reads and the one that writes them. A CMD write is Machine/Port.lean's. -/

namespace Sys2Proof.Machine

/-- R22: the offset of each register; `reserved` stands at the first reserved offset. -/
def Reg.offset : Reg → Nat
  | .id => 0x00
  | .cap => 0x04
  | .ctrl => 0x08
  | .cmd => 0x0C
  | .status => 0x10
  | .n => 0x14
  | .alpha => 0x18
  | .aAddr => 0x1C
  | .bAddr => 0x20
  | .yAddr => 0x24
  | .opa => 0x28
  | .opb => 0x2C
  | .acc => 0x30
  | .res => 0x34
  | .maxdiff => 0x38
  | .processed => 0x3C
  | .erraddr => 0x40
  | .reserved => 0x44

/-- R22, R23: the register at a word-aligned offset of the window. -/
def registerAt (o : Nat) : Option Reg :=
  match o with
  | 0x00 => some .id
  | 0x04 => some .cap
  | 0x08 => some .ctrl
  | 0x0C => some .cmd
  | 0x10 => some .status
  | 0x14 => some .n
  | 0x18 => some .alpha
  | 0x1C => some .aAddr
  | 0x20 => some .bAddr
  | 0x24 => some .yAddr
  | 0x28 => some .opa
  | 0x2C => some .opb
  | 0x30 => some .acc
  | 0x34 => some .res
  | 0x38 => some .maxdiff
  | 0x3C => some .processed
  | 0x40 => some .erraddr
  | o => if o < 0x100 ∧ o % 4 = 0 then some .reserved else none

/-- R22: the offset a host access points at; none outside the window. -/
def Place.resolve (t : Target) : Place → Option Nat
  | .offset o => some o
  | .address a => if t.base ≤ a ∧ a < t.base + 0x100 then some (a - t.base) else none

/-- R23: the register a host access of `size` bytes reaches; none where the access is not defined. -/
def portRegister (t : Target) (place : Place) (size : Nat) : Option Reg :=
  if size = 4 then (place.resolve t).bind registerAt else none

/-- R24: the value of ID. -/
def idWord : Word := 0x51530001

/-- R25: the value of CAP. -/
def capWord (t : Target) : Word :=
  BitVec.ofNat 24 (if t.hasVector then t.vlmax else 1) ++ 0#7 ++ BitVec.ofBool t.hasVector

/-- R26: the value of CTRL. -/
def ctrlWord (ie : Bool) : Word :=
  0#31 ++ BitVec.ofBool ie

/-- One of the commands `ops` is running (R48). -/
def State.runs (s : State) (ops : List Instr) : Bool :=
  match s.run with
  | some r => ops.contains r.snap.op
  | none => false

/-- R48: ACC as a host reads it: any value while MAC runs. -/
def State.readAcc (s : State) : Word :=
  if s.runs [.mac] then BitVec.ofNat 32 s.choice else s.acc

/-- R38, R48: RES as a host reads it, sign-extended: any value while MAC or CLAMP runs. -/
def State.readRes (s : State) : Word :=
  sext32 (if s.runs [.mac, .clamp] then BitVec.ofNat 16 s.choice else s.res)

/-- R48: MAXDIFF as a host reads it: any value while COMPARE runs. -/
def State.readMaxdiff (s : State) : Word :=
  if s.runs [.compare] then BitVec.ofNat 32 s.choice else s.maxdiff

/-- R48: STATUS as a host reads it: EQUAL is any value while COMPARE runs. -/
def State.readStatus (s : State) : Word :=
  { s.status with equal := if s.runs [.compare] then decide (s.choice % 2 = 1) else s.status.equal }.word

/-- R48: PROCESSED as a host reads it: while a command runs, any value from the largest one read before during the
command up to n (notes/assumptions/7.md). -/
def State.processedRead (s : State) : Nat :=
  match s.run with
  | some r => r.seen + s.choice % (r.snap.n.toNat - r.seen + 1)
  | none => s.processed.toNat

/-- What a read of PROCESSED leaves the later reads of the command (R48). -/
def Run.withSeen (r : Run) (v : Nat) : Run :=
  { r with seen := v }

/-- The word a host read returns (R22 to R41, R48). -/
def State.readValue (s : State) : Reg → Word
  | .id => idWord
  | .cap => capWord s.target
  | .ctrl => ctrlWord s.ctrlIE
  | .cmd => 0
  | .status => s.readStatus
  | .n => s.n
  | .alpha => sext32 s.alpha
  | .aAddr => s.aAddr
  | .bAddr => s.bAddr
  | .yAddr => s.yAddr
  | .opa => sext32 s.opa
  | .opb => sext32 s.opb
  | .acc => s.readAcc
  | .res => s.readRes
  | .maxdiff => s.readMaxdiff
  | .processed => BitVec.ofNat 32 s.processedRead
  | .erraddr => s.erraddr
  | .reserved => 0

/-- Whether a host read of a register draws a value (R48). -/
def State.drawsOnRead (s : State) : Reg → Bool
  | .status => s.runs [.compare]
  | .acc => s.runs [.mac]
  | .res => s.runs [.mac, .clamp]
  | .maxdiff => s.runs [.compare]
  | .processed => s.run.isSome
  | _ => false

/-- The state a host read leaves. A read has no side effect on any register (R23). In the model it takes the draw it
used, remembers the PROCESSED it showed, and, where it is a STATUS read with BUSY = 0, ends the loans, since the
completion is observed (R70 items 3 and 4, R240). -/
def State.readReg (s : State) (reg : Reg) : State :=
  { (if s.drawsOnRead reg then s.afterChoice else s) with
    rdata := s.readValue reg
    run := if reg = .processed then s.run.map (·.withSeen s.processedRead) else s.run
    loans := if reg = .status ∧ s.status.busy = false then [] else s.loans }

/-- R49, D29: a host write to ACC while MAC or CLAMP runs. -/
def Run.raceAcc (r : Run) : Run :=
  if r.snap.op = .mac ∨ r.snap.op = .clamp then { r with accRaced := true } else r

/-- The state a host write leaves (R22 to R41, R49), but for CMD, whose write is an issue (R27, R200). Writes to
read-only registers and reserved bits are ignored (R23). -/
def State.writeReg (s : State) (reg : Reg) (w : Word) : State :=
  match reg with
  | .id => s
  | .cap => s
  | .ctrl => { s with ctrlIE := w.getLsbD 0 }
  | .cmd => s
  | .status => s.acknowledge w
  | .n => { s with n := w }
  | .alpha => { s with alpha := w.extractLsb' 0 16 }
  | .aAddr => { s with aAddr := w }
  | .bAddr => { s with bAddr := w }
  | .yAddr => { s with yAddr := w }
  | .opa => { s with opa := w.extractLsb' 0 16 }
  | .opb => { s with opb := w.extractLsb' 0 16 }
  | .acc => { s with acc := w, run := s.run.map Run.raceAcc }
  | .res => s
  | .maxdiff => s
  | .processed => s
  | .erraddr => s
  | .reserved => s

end Sys2Proof.Machine
end

