-- ==== Sys2Proof/Machine/Port.lean ====
section
/-! DEFINITION. What each event does: the host's register accesses, its CMD writes, its own accesses to the sample
memory, WAIT, the interrupt line, reset, and the unit's own turn (spec/00_scope.md rule R7). -/

namespace Sys2Proof.Machine

/-- R200: a CMD write of the word w is decoded and issued in one step. -/
def State.issueWord (s : State) (w : Word) : Result :=
  match decode w with
  | .command i => exec i { s with turn := .host }
  | .illegal _ => .next { s with turn := .host }.issueIllegal

/-- A host write on the register port (R6, R23, R27). -/
def State.hostWrite (s : State) (place : Place) (size : Nat) (w : Word) : Result :=
  match portRegister s.target place size with
  | none => .refused .portAccess
  | some reg => if reg = .cmd then s.issueWord w else .next (s.writeReg reg w)

/-- A host read on the register port (R6, R23, R48). -/
def State.hostRead (s : State) (place : Place) (size : Nat) : Result :=
  match portRegister s.target place size with
  | none => .refused .portAccess
  | some reg => .next (s.readReg reg)

/-- R103, WAIT: one read of STATUS; while it shows BUSY = 1 the unit goes on and WAIT reads again. On a unit that is
stuck WAIT never ends (R252). -/
def State.hostWait (s : State) : Result :=
  match s.run with
  | none => .next (s.readReg .status)
  | some r =>
    if r.hung then .fault .hang
    else .next { s.readReg .status with agenda := Event.unit :: Event.wait :: s.agenda }

/-- The host looks at `irq` (R210). A level of 1 shows DONE, and the loans end (R240). -/
def State.hostIrqSample (s : State) : State :=
  { s with rdata := if s.irq then 1 else 0, loans := if s.irq then [] else s.loans }

/-- The host's own 16-bit store (R104, R63). On a borrowed buffer it is a race (R70 item 4, R241). On memory that is not
ordinary it is performed as on ordinary memory: DESIGN CHOICE, unsafe, notes/assumptions/20.md (R65 speaks of buffers
only). -/
def State.hostStore (s : State) (e : Nat) (v : Sample) : Result :=
  if !Memory.holds e then .fault .noSuchAddress
  else if s.loans.any (·.lendsForWrite e) then .refused .race
  else .next { s with mem := Memory.writeSample s.mem e v }

/-- The host's own 16-bit load (R104, R63). On a borrowed output it is a race (R70 item 4, R241). On memory that is not
ordinary it is performed as on ordinary memory: DESIGN CHOICE, unsafe, notes/assumptions/20.md (R65 speaks of buffers
only). -/
def State.hostLoad (s : State) (e : Nat) : Result :=
  if !Memory.holds e then .fault .noSuchAddress
  else if s.loans.any (·.lendsForRead e) then .refused .race
  else .next { s with rdata := zext32 (Memory.readSample s.mem e) }

/-- R43: the unit's own next step; IDLE, it has none and every register keeps its value (R225). -/
def State.unitTurn (s : State) : Result :=
  match s.run with
  | none => .next s
  | some r => exec r.snap.op { s with turn := .unit }

/-- What an event does. -/
def State.handle (s : State) (e : Event) : Result :=
  match e with
  | .reset => .next s.resetUnit
  | .unit => s.unitTurn
  | .regWrite place size w => s.hostWrite place size w
  | .regRead place size => s.hostRead place size
  | .wait => s.hostWait
  | .irqSample => .next s.hostIrqSample
  | .memWrite addr v => s.hostStore addr v
  | .memRead addr => s.hostLoad addr

/-- With no event to come the unit goes on by itself (weak fairness, R251); stuck, it never does (R252). -/
def State.quiet (s : State) : Result :=
  match s.run with
  | none => .next s
  | some r => if r.hung then .fault .stuck else s.unitTurn

end Sys2Proof.Machine
end

