-- ==== Sys2Proof/Machine/Step.lean ====
section
/-! DEFINITION. One step of the machine, and where the next command word stands: the unit fetches no instructions
(R21), so the next command is the CMD write at the head of the agenda. -/

namespace Sys2Proof.Machine

/-- One step (R7): the next event happens, or, where none is to come, the unit takes its own next step. -/
def step (s : State) : Host.Outcome State Fault Refusal :=
  match s.agenda with
  | [] => s.quiet
  | e :: rest => { s with agenda := rest }.handle e

/-- `s` with a host write of the command word to CMD (offset 0x0C, R27) as the very next event. -/
def State.withFetchWord (s : State) (nbits w : Nat) : State :=
  { s with agenda := .regWrite (.offset 0x0C) 4 (BitVec.ofNat 32 (w % 2 ^ nbits)) :: s.agenda }

end Sys2Proof.Machine
end

