-- ==== Sys2Proof/Machine/Script.lean ====
section
/-! DEFINITION. The host script notation (spec/30_encoding.md rules R100 to R105): each line as the transactions it
stands for, in the agenda's form. Control lines and host variables are host steps with no transaction (R100); the path
a host takes through its script is a list of lines. -/

namespace Sys2Proof.Machine

/-- A script line (R101 to R104). A decimal or hexadecimal value is an integer. -/
inductive ScriptLine where
  | wr (reg : Reg) (value : Int)
  | rd (reg : Reg)
  | cmd (op : Instr)
  | wait
  | run (op : Instr)
  | ack
  | setbuf (a b y n : Int)
  | memw16 (addr : Nat) (value : Int)
  | memr16 (addr : Nat)
deriving DecidableEq, Repr

/-- R101: `WR reg, value` is one register write. -/
def eventWr (reg : Reg) (value : Int) : Event :=
  .regWrite (.offset reg.offset) 4 (u32 value)

/-- R102: `RD reg -> name` is one register read. -/
def eventRd (reg : Reg) : Event :=
  .regRead (.offset reg.offset) 4

/-- R103: `CMD op` is one write of the command's word to CMD. -/
def eventCmd (op : Instr) : Event :=
  .regWrite (.offset Reg.cmd.offset) 4 (encode op)

/-- R101 to R104: the transactions of a script line. -/
def ScriptLine.events : ScriptLine → List Event
  | .wr reg value => [eventWr reg value]
  | .rd reg => [eventRd reg]
  | .cmd op => [eventCmd op]
  | .wait => [.wait]
  | .run op => [eventCmd op, .wait]
  | .ack => [eventWr .status 0x0000000E]
  | .setbuf a b y n => [eventWr .aAddr a, eventWr .bAddr b, eventWr .yAddr y, eventWr .n n]
  | .memw16 addr value => [.memWrite addr (u16 value)]
  | .memr16 addr => [.memRead addr]

/-- The transactions of a script, in the order of its lines. -/
def scriptEvents (lines : List ScriptLine) : List Event :=
  lines.flatMap ScriptLine.events

/-- R105: the call `clamp(value)`. -/
def callClamp (value : Int) : List ScriptLine :=
  [.wr .acc value, .run .clamp, .rd .res]

/-- R105: the call `axpy_ref(a, b, alpha) -> y`, length n. -/
def callAxpyRef (a b y alpha n : Int) : List ScriptLine :=
  [.wr .alpha alpha, .setbuf a b y n, .run .axpyRef]

/-- R105: the call `axpy_vectorized(a, b, alpha) -> y`. -/
def callAxpyVec (a b y alpha n : Int) : List ScriptLine :=
  [.wr .alpha alpha, .setbuf a b y n, .run .axpyVec]

/-- R105: the call `compare(ref, test)`. -/
def callCompare (ref test n : Int) : List ScriptLine :=
  [.wr .aAddr ref, .wr .bAddr test, .wr .n n, .run .compare, .rd .status, .rd .maxdiff]

end Sys2Proof.Machine
end

