-- ==== Sys2Proof/Safety.lean ====
section
/-! DEFINITION. The terms the statements use: the states the unit keeps to (spec/10_state.md rules R28, R43, R44), the
platform on which memory commands run, the effect of a whole command, and how far an AXPY command has come. -/

namespace Sys2Proof.Machine

/-- R28: the invariants of STATUS, and R202: the codes that are produced. -/
structure Status.Legal (f : Status) : Prop where
  /-- BUSY = 1 implies DONE = 0 and ERR = 0. -/
  busy_alone : f.busy = true → f.done = false ∧ f.err = false
  /-- ERR = 0 implies ERRCODE = 0. -/
  no_code : f.err = false → f.errcode = 0
  /-- With ERR = 1, ERRCODE is one of 1 to 5. -/
  code : f.err = true → 1 ≤ f.errcode.toNat ∧ f.errcode.toNat ≤ 5

/-- What holds of a running command (R42, R44, R48, R68, R180). -/
structure Run.Legal (s : State) (r : Run) : Prop where
  /-- NOP is never accepted. -/
  accepted : r.snap.op ≠ .nop
  /-- The command passed the checks of its issue. -/
  checked : r.snap.issueError = none
  /-- The completed strips and the open one lie inside the buffers. -/
  inside : r.snap.op.isMemory = true → s.processed.toNat + r.lanes.length ≤ r.snap.n.toNat
  /-- MAC and CLAMP have no strips. -/
  no_strip : r.snap.op.isMemory = false → r.lanes = []
  /-- R151: the chunk is at most VLMAX. -/
  width : r.lanes.length ≤ s.target.vlmax
  /-- R131: a strip of AXPY_REF has one element. -/
  reference_width : r.snap.op = .axpyRef → r.lanes.length ≤ 1
  /-- R68 item 2: the store of a lane follows both its reads. -/
  reads_first : ∀ l ∈ r.lanes, l.stored = true → l.a.isSome = true ∧ l.b.isSome = true
  /-- R61: COMPARE stores nothing. -/
  no_store : r.snap.op.writesY = false → ∀ l ∈ r.lanes, l.stored = false
  /-- What an element of y held before is kept exactly while its store is made and the strip is open. -/
  kept : ∀ l ∈ r.lanes, l.before.isSome = l.stored
  /-- An open strip has something left to do. -/
  unfinished : r.lanes ≠ [] → r.lanes.all (Lane.finished r.snap.op.writesY) = false
  /-- R48: what a host has read of PROCESSED is at most n. -/
  seen : r.seen ≤ r.snap.n.toNat
  /-- R184: the running maximum is at most 65535. -/
  md : r.md ≤ 65535
  /-- R184: the running flag says whether the running maximum is 0. -/
  eq_iff : r.eq = true ↔ r.md = 0
  /-- R70 item 4: the buffers are borrowed. -/
  borrowed : r.snap.op.isMemory = true → r.snap ∈ s.loans
  /-- R49, D29: only a host write during MAC or CLAMP leaves ACC open. -/
  raced : r.accRaced = true → r.snap.op = .mac ∨ r.snap.op = .clamp
  /-- Only a command that makes transactions can wait for a response. -/
  hung : r.hung = true → r.snap.op.isMemory = true

/-- The states the unit keeps to. -/
structure State.Inv (s : State) : Prop where
  /-- R8: the installation's parameters are in range. -/
  target : s.target.wf = true
  /-- The memory is in its canonical form. -/
  memory : Memory.wf s.mem
  /-- R28. -/
  status : s.status.Legal
  /-- R43: STATUS.BUSY = 1 exactly when the controller is BUSY. -/
  busy : s.status.busy = s.run.isSome
  /-- R42, R44. -/
  running : ∀ r, s.run = some r → r.Legal s
  /-- R39: every value COMPARE writes is in [0, 65535]. -/
  maxdiff : s.maxdiff.toNat ≤ 65535
  /-- R184: EQUAL = 1 goes with MAXDIFF = 0. -/
  equal : s.status.equal = true → s.maxdiff = 0

/-- Every value the feed will ever give is `v`. -/
def Feed.Always {α : Type} (f : Feed α) (v : α) : Prop :=
  (∀ x ∈ f.listed, x = v) ∧ f.rest = some v

/-- R151, R161: CAPIN will only give answers of a target of this unit. -/
def State.CapinLegal (s : State) : Prop :=
  (∀ w ∈ s.capin.listed, 1 ≤ w ∧ w ≤ s.target.vlmax) ∧ ∀ w, s.capin.rest = some w → 1 ≤ w ∧ w ≤ s.target.vlmax

/-- A platform with one memory (R74), whose memory system answers every transaction without an error (R207). -/
structure State.Serves (s : State) : Prop where
  coherent : s.target.coherent = true
  answers : s.responses.Always .ok

/-- k steps of the meaning of one command. -/
def execTimes (i : Instr) : Nat → State → Result
  | 0, s => .next s
  | k + 1, s =>
    match exec i s with
    | .next t => execTimes i k t
    | .fault f => .fault f
    | .refused r => .refused r

/-- A whole command: its issue by the host, then k of its own steps (R43, R200). -/
def wholeCommand (i : Instr) (k : Nat) (s : State) : Result :=
  match exec i { s with turn := .host } with
  | .next t => execTimes i k { t with turn := .unit }
  | .fault f => .fault f
  | .refused r => .refused r

/-- From s to t the unit made x transactions and took c CAPIN answers (R251): each transaction takes one draw of the order
and one response, and each answer is one of CAPIN's. -/
structure Took (s t : State) (x c : Nat) : Prop where
  drawn : t.drawn = s.drawn + 2 * x + c
  choices : t.choices = Nat.iterate Feed.advance x s.choices
  responses : t.responses = Nat.iterate Feed.advance x s.responses
  capin : t.capin = Nat.iterate Feed.advance c s.capin

/-- Element i of y as R132 and R158 give it, from the memory at acceptance. -/
def axpyElement (m : Memory) (k : Snapshot) (i : Nat) : Sample :=
  axpySample (Memory.readSample m (elem k.aAddr i)) k.alpha (Memory.readSample m (elem k.bAddr i))

/-- A byte address of a buffer of the command: n samples from `base` on (R62). -/
def inBuffer (k : Snapshot) (base : Word) (a : Nat) : Prop :=
  base.toNat ≤ a ∧ a < base.toNat + k.bytes

/-- Nothing but y has changed since the memory m (R132, R158, R209, R230). -/
def OutsideYKept (m : Memory) (k : Snapshot) (s : State) : Prop :=
  ∀ a, ¬ inBuffer k k.yAddr a → Memory.readByte s.mem a = Memory.readByte m a

/-- Element i of y is still what it was in the memory m. -/
def yOld (m : Memory) (k : Snapshot) (s : State) (i : Nat) : Prop :=
  Memory.readSample s.mem (elem k.yAddr i) = Memory.readSample m (elem k.yAddr i)

/-- Element i of y holds its result. -/
def yNew (m : Memory) (k : Snapshot) (s : State) (i : Nat) : Prop :=
  Memory.readSample s.mem (elem k.yAddr i) = axpyElement m k i

/-- What a lane of the open strip holds while an AXPY command runs that was accepted with the memory m: the samples it
has read are those of m, its element of y is old until it is stored, and what it then keeps is the old element. -/
structure LaneProgress (m : Memory) (s : State) (r : Run) (j : Nat) (l : Lane) : Prop where
  a : ∀ v, l.a = some v → v = Memory.readSample m (elem r.snap.aAddr (s.processed.toNat + j))
  b : ∀ v, l.b = some v → v = Memory.readSample m (elem r.snap.bAddr (s.processed.toNat + j))
  stored : l.stored = true → yNew m r.snap s (s.processed.toNat + j)
  before : ∀ v, l.before = some v → v = Memory.readSample m (elem r.snap.yAddr (s.processed.toNat + j))
  unstored : l.stored = false → yOld m r.snap s (s.processed.toNat + j)

/-- How far an AXPY command has come that was accepted with the memory m (R132, R158, R209): y holds its results up to
PROCESSED, the open strip's lanes are under way, and everything else is as it was. -/
structure AxpyProgress (m : Memory) (s : State) (r : Run) : Prop where
  completed : ∀ i, i < s.processed.toNat → yNew m r.snap s i
  lanes : ∀ j l, r.lanes[j]? = some l → LaneProgress m s r j l
  ahead : ∀ i, s.processed.toNat + r.lanes.length ≤ i → i < r.snap.n.toNat → yOld m r.snap s i
  outside : OutsideYKept m r.snap s

/-- What R209 and R230 leave in memory of an AXPY command that was abandoned in state s with the run r: y holds its
results up to PROCESSED; of the open strip, an element whose two samples were read is old or new, and any other is
old; everything else is as it was. -/
structure AxpyAbandoned (m : Memory) (s : State) (r : Run) (t : State) : Prop where
  completed : ∀ i, i < s.processed.toNat → yNew m r.snap t i
  either : ∀ j l, r.lanes[j]? = some l →
    yOld m r.snap t (s.processed.toNat + j) ∨ yNew m r.snap t (s.processed.toNat + j)
  unread : ∀ j l, r.lanes[j]? = some l → l.a = none ∨ l.b = none → yOld m r.snap t (s.processed.toNat + j)
  ahead : ∀ i, s.processed.toNat + r.lanes.length ≤ i → i < r.snap.n.toNat → yOld m r.snap t i
  outside : OutsideYKept m r.snap t

/-- COMPARE's report over the first p elements (R181, R182, R209): whether all are equal. -/
def allEqual (m : Memory) (k : Snapshot) (p : Nat) : Prop :=
  ∀ i, i < p → Memory.readSample m (elem k.aAddr i) = Memory.readSample m (elem k.bAddr i)

/-- COMPARE's report over the first p elements: the largest distance, 0 over none (R182, R185). -/
def maxDistance (m : Memory) (k : Snapshot) : Nat → Nat
  | 0 => 0
  | p + 1 => max (maxDistance m k p)
      (absdiff (Memory.readSample m (elem k.aAddr p)) (Memory.readSample m (elem k.bAddr p)))

/-- How far a COMPARE has come that was accepted with the memory m (R180, R209): the memory is still m, the samples its
open strip has read are those of m, and its running report is that of the elements completed. -/
structure CompareProgress (m : Memory) (s : State) (r : Run) : Prop where
  mem : s.mem = m
  a : ∀ j l v, r.lanes[j]? = some l → l.a = some v →
    v = Memory.readSample m (elem r.snap.aAddr (s.processed.toNat + j))
  b : ∀ j l v, r.lanes[j]? = some l → l.b = some v →
    v = Memory.readSample m (elem r.snap.bAddr (s.processed.toNat + j))
  eq : r.eq = true ↔ allEqual m r.snap s.processed.toNat
  md : r.md = maxDistance m r.snap s.processed.toNat

/-- The same controller, running its command under another opcode (R156 compares AXPY_VEC with AXPY_REF). -/
def State.withOp (s : State) (op : Instr) : State :=
  { s with run := s.run.map fun r => { r with snap := { r.snap with op := op } } }

/-- A byte of a buffer that the command has borrowed from the host (R70 item 4). -/
def Borrowed (k : Snapshot) (a : Nat) : Prop :=
  ∃ b ∈ k.bases, inBuffer k b a

/-- A command idle and ready to be accepted: the unit is IDLE, keeps its invariants, the checks pass (R200), and the
buffers are in ordinary memory (R65). -/
structure Ready (op : Instr) (s : State) : Prop where
  inv : s.Inv
  idle : s.status.busy = false
  checks : (capture op s).issueError = none
  placed : (capture op s).inOrdinaryMemory s.target = true

/-- R65: the running command's buffers are in ordinary memory. -/
def State.Placed (s : State) : Prop :=
  ∀ r, s.run = some r → r.snap.inOrdinaryMemory s.target = true

/-- R65: a byte of a range that is not ordinary memory. -/
def inDevice (t : Target) (a : Nat) : Prop :=
  ∃ d ∈ t.devices, d.1 ≤ a ∧ a < d.1 + d.2

/-- The command ended without error in t (R201, R253). -/
def Succeeded (t : State) : Prop :=
  t.run = none ∧ t.status.err = false

/-- Every register of the window that a state holds is the same (R22). -/
structure SameRegisters (s t : State) : Prop where
  ctrl : t.ctrlIE = s.ctrlIE
  status : t.status = s.status
  n : t.n = s.n
  alpha : t.alpha = s.alpha
  aAddr : t.aAddr = s.aAddr
  bAddr : t.bAddr = s.bAddr
  yAddr : t.yAddr = s.yAddr
  opa : t.opa = s.opa
  opb : t.opb = s.opb
  acc : t.acc = s.acc
  res : t.res = s.res
  maxdiff : t.maxdiff = s.maxdiff
  processed : t.processed = s.processed
  erraddr : t.erraddr = s.erraddr
  target : t.target = s.target

/-- The same operand registers (R42). -/
structure SameOperands (s t : State) : Prop where
  n : t.n = s.n
  alpha : t.alpha = s.alpha
  aAddr : t.aAddr = s.aAddr
  bAddr : t.bAddr = s.bAddr
  yAddr : t.yAddr = s.yAddr

/-- The next event is a 32-bit host write of w to the register at offset o (R6, R23); `rest` follows it. -/
def State.writesNext (s : State) (o : Nat) (w : Word) (rest : List Event) : Prop :=
  ∃ place : Place, place.resolve s.target = some o ∧ s.agenda = .regWrite place 4 w :: rest

/-- The next event is a 32-bit host read of the register at offset o (R6, R23); `rest` follows it. -/
def State.readsNext (s : State) (o : Nat) (rest : List Event) : Prop :=
  ∃ place : Place, place.resolve s.target = some o ∧ s.agenda = .regRead place 4 :: rest

/-- k steps of the machine. -/
def stepTimes : Nat → State → Result
  | 0, s => .next s
  | k + 1, s =>
    match step s with
    | .next t => stepTimes k t
    | .fault f => .fault f
    | .refused r => .refused r

/-- The unit's turn in the command `op`: the command runs, no transaction of it waits for ever, and the meaning that is
taken is the unit's own step (R43). -/
structure Running (op : Instr) (s : State) (r : Run) : Prop where
  inv : s.Inv
  turn : s.turn = .unit
  run : s.run = some r
  op : r.snap.op = op
  live : r.hung = false

/-- The three commands that run over memory (R61). -/
def IsMemoryCommand (op : Instr) : Prop :=
  op = .axpyRef ∨ op = .axpyVec ∨ op = .compare

/-- The two commands that write y (R61). -/
def IsAxpy (op : Instr) : Prop :=
  op = .axpyRef ∨ op = .axpyVec

/-- STATUS after a completion without error (R200, R201). -/
def Status.success (f : Status) : Status :=
  { f with busy := false, done := true, err := false, errcode := 0 }

end Sys2Proof.Machine
end

