-- ==== Sys2Proof/Certificates/Slice0/Obligations.lean ====
section
/-! DEFINITION. The statements about the machine, each formalising rules of spec/ or the model's own choices named in
notes/assumptions/. -/

section

open Sys2Proof Sys2Proof.Machine

/-! ## Encoding -/

/-- R92, R94: words written out from the opcode map decode to the command of their row, and words outside it decode to
none (spec/95_test_vectors.md ER1 to ER5b). -/
def Obligations.DecodeWordsOfTheOpcodeMap : Prop :=
  decode 0x00000000 = .command .nop ∧ decode 0x00000001 = .command .mac ∧ decode 0x00000002 = .command .clamp ∧
  decode 0x00000003 = .command .axpyRef ∧ decode 0x00000004 = .command .axpyVec ∧
  decode 0x00000005 = .command .compare ∧
  ∀ w ∈ ([0x00000006, 0x0000000F, 0x00000010, 0x00000013, 0x80000001, 0xFFFFFFFF] : List Word),
    ∃ why, decode w = .illegal why

/-- R92: a word selects a command exactly when it matches the row's match under its mask, and the words of the reserved
rows select none. -/
def Obligations.DecodeMatchesOpcodeMap : Prop :=
  ∀ w : Word,
    (decode w = .command .nop ↔ w &&& 0xFFFFFFFF = 0x00000000) ∧
    (decode w = .command .mac ↔ w &&& 0xFFFFFFFF = 0x00000001) ∧
    (decode w = .command .clamp ↔ w &&& 0xFFFFFFFF = 0x00000002) ∧
    (decode w = .command .axpyRef ↔ w &&& 0xFFFFFFFF = 0x00000003) ∧
    (decode w = .command .axpyVec ↔ w &&& 0xFFFFFFFF = 0x00000004) ∧
    (decode w = .command .compare ↔ w &&& 0xFFFFFFFF = 0x00000005) ∧
    ((∃ why, decode w = .illegal why) ↔ 6 ≤ w.toNat)

/-- R93: the decoder, case by case, on every 32-bit word. -/
def Obligations.DecoderIsTotal : Prop :=
  ∀ w : Word,
    let rsv := w.extractLsb' 4 28
    let op := w.extractLsb' 0 4
    (w = 0 → decode w = .command .nop) ∧
    (w ≠ 0 → rsv ≠ 0 → ∃ why, decode w = .illegal why) ∧
    (rsv = 0 → op = 0x1 → decode w = .command .mac) ∧
    (rsv = 0 → op = 0x2 → decode w = .command .clamp) ∧
    (rsv = 0 → op = 0x3 → decode w = .command .axpyRef) ∧
    (rsv = 0 → op = 0x4 → decode w = .command .axpyVec) ∧
    (rsv = 0 → op = 0x5 → decode w = .command .compare) ∧
    (rsv = 0 → 0x6 ≤ op → ∃ why, decode w = .illegal why)

/-- R90, R92: decode and encode agree on every command and on every word, and a word is legal in the format CMDW
exactly when it decodes to a command. -/
def Obligations.EncodeDecodeAgree : Prop :=
  (∀ i : Instr, i.wf = true → decode (encode i) = .command i ∧ decodeTableWord 32 (encode i).toNat = some i) ∧
  (∀ (w : Word) (i : Instr), decode w = .command i → i.wf = true ∧ encode i = w) ∧
  (∀ w : Word, (∃ i, decode w = .command i) ↔ (cmdwOf w).wf = true)

/-! ## The step -/

/-- R7, R43, R200: a step runs the decoded command. A CMD write of a command's word is the host's turn in its meaning;
the unit's turn, as an event or with no event to come, is the running command's own step; IDLE, the unit has none. -/
def Obligations.StepRunsTheDecodedCommand : Prop :=
  (∀ (s : State) (rest : List Event) (w : Word) (i : Instr), s.writesNext 0x0C w rest → decode w = .command i →
    i.wf = true → step s = exec i { s with agenda := rest, turn := .host }) ∧
  (∀ (s : State) (rest : List Event) (r : Run), s.agenda = .unit :: rest → s.run = some r →
    step s = exec r.snap.op { s with agenda := rest, turn := .unit }) ∧
  (∀ (s : State) (r : Run), s.agenda = [] → s.run = some r → r.hung = false →
    step s = exec r.snap.op { s with turn := .unit }) ∧
  (∀ s : State, s.agenda = [] → s.run = none → step s = .next s)

/-- R200: the issue step, for every word written to CMD and every state of the unit. A command that would be accepted with
a buffer placed in memory that is not ordinary is outside the model (R65): PlatformRefusals says that it is refused. -/
def Obligations.IssueStep : Prop :=
  ∀ (s : State) (rest : List Event) (w : Word), s.Inv → s.writesNext 0x0C w rest →
    let h := { s with agenda := rest, turn := .host }
    (decode w = .command .nop → step s = .next h) ∧
    (decode w ≠ .command .nop → s.status.busy = true →
      step s = .next { h with status := { s.status with ovr := true } }) ∧
    (∀ why, decode w = .illegal why → s.status.busy = false →
      step s = .next { h with status := { s.status with done := true, err := true, errcode := 1 } }) ∧
    (∀ i, decode w = .command i → i ≠ .nop → s.status.busy = false →
      (i.isMemory = false ∨ s.n = 0 → (capture i s).issueError = none) ∧
      (∀ code addr, (capture i s).issueError = some (code, addr) →
        step s = .next { h with
          status := { s.status with done := true, err := true, errcode := code.code }
          erraddr := addr }) ∧
      ((capture i s).issueError = none → (capture i s).inOrdinaryMemory s.target = true →
        step s = .next { h with
          status := { s.status with busy := true, done := false, err := false, errcode := 0 }
          run := some
            { snap :=
                { op := i, n := s.n, alpha := s.alpha, aAddr := s.aAddr, bAddr := s.bAddr, yAddr := s.yAddr,
                  opa := s.opa, opb := s.opb, acc := s.acc }
              lanes := [], eq := true, md := 0, seen := 0, accRaced := false, hung := false }
          processed := if i.isMemory then 0 else s.processed
          loans := if i.isMemory then capture i s :: s.loans else s.loans }))

/-- R204: the ALIGN check. It comes before the other checks (R208). -/
def Obligations.AlignCheck : Prop :=
  ∀ (k : Snapshot) (base : Word), IsMemoryCommand k.op → 0 < k.n.toNat →
    (k.issueError = some (.align, base) ↔
      (k.aAddr.getLsbD 0 = true ∧ base = k.aAddr) ∨
      (k.aAddr.getLsbD 0 = false ∧ k.bAddr.getLsbD 0 = true ∧ base = k.bAddr) ∨
      (k.aAddr.getLsbD 0 = false ∧ k.bAddr.getLsbD 0 = false ∧ k.op ≠ .compare ∧ k.yAddr.getLsbD 0 = true ∧
        base = k.yAddr))

/-- R205: the RANGE check, in mathematical integers; and that an issue reports it where the ALIGN check passes (R208). -/
def Obligations.RangeCheck : Prop :=
  ∀ (k : Snapshot) (base : Word), IsMemoryCommand k.op → 0 < k.n.toNat →
    let past (b : Word) := 2 ^ 32 < b.toNat + 2 * k.n.toNat
    let failing :=
      (past k.aAddr ∧ base = k.aAddr) ∨
      (¬ past k.aAddr ∧ past k.bAddr ∧ base = k.bAddr) ∨
      (¬ past k.aAddr ∧ ¬ past k.bAddr ∧ k.op ≠ .compare ∧ past k.yAddr ∧ base = k.yAddr)
    (k.rangeError = some base ↔ failing) ∧
    ((∀ b, k.issueError ≠ some (.align, b)) → (k.issueError = some (.range, base) ↔ failing))

/-- R206: the OVERLAP check; and that an issue reports it where the ALIGN and RANGE checks pass (R208), and no error
where it passes too. -/
def Obligations.OverlapCheck : Prop :=
  ∀ (k : Snapshot) (e : Word), IsMemoryCommand k.op → 0 < k.n.toNat →
    let L := 2 * k.n.toNat
    let part (y x : Nat) := y < x + L ∧ x < y + L ∧ y ≠ x
    let failing := k.op ≠ .compare ∧
      (part k.yAddr.toNat k.aAddr.toNat ∨ part k.yAddr.toNat k.bAddr.toNat)
    (k.overlapError = some e ↔ failing ∧ e = k.yAddr) ∧
    ((∀ b, k.issueError ≠ some (.align, b)) → (∀ b, k.issueError ≠ some (.range, b)) →
      (k.issueError = some (.overlap, e) ↔ failing ∧ e = k.yAddr) ∧ (k.issueError = none ↔ ¬ failing))

/-- R62, R64: a buffer of n samples is the bytes of its elements, and for a command that passes the checks every
element of every buffer it uses lies inside the address space, at an even address. -/
def Obligations.PassedChecksKeepBuffersInside : Prop :=
  ∀ (k : Snapshot), IsMemoryCommand k.op → k.issueError = none → ∀ b ∈ k.bases,
    b.toNat + 2 * k.n.toNat ≤ 2 ^ 32 ∧
    (∀ i, i < k.n.toNat → elem b i = b.toNat + 2 * i ∧ elem b i % 2 = 0 ∧ elem b i + 1 < 2 ^ 32) ∧
    (∀ a, inBuffer k b a ↔ ∃ i, i < k.n.toNat ∧ (a = elem b i ∨ a = elem b i + 1))

/-! ## Arithmetic -/

/-- R111: the properties of the saturation. -/
def Obligations.ClampProperties : Prop :=
  ∀ v w : Int,
    (-32768 ≤ clamp v ∧ clamp v ≤ 32767) ∧
    (-32768 ≤ v → v ≤ 32767 → clamp v = v) ∧
    (v ≤ w → clamp v ≤ clamp w) ∧
    clamp 32768 = 32767 ∧ clamp (-32769) = -32768 ∧ clamp (2 ^ 31 - 1) = 32767 ∧ clamp (-2 ^ 31) = -32768

/-- R112: the clip logic computes the saturation on every 32-bit pattern. -/
def Obligations.ClipIsClamp : Prop :=
  ∀ p : Word,
    (if p.extractLsb' 15 17 = 0b00000000000000000 ∨ p.extractLsb' 15 17 = 0b11111111111111111 then p.extractLsb' 0 16
      else if p.getLsbD 31 = false then 0x7FFF#16 else 0x8000#16) = u16 (clamp (s32 p)) ∧
    clip p = u16 (clamp (s32 p))

/-- R114: the bounds of `mac`, that the 32-bit accumulator never overflows, that 32 bits are the least width, and that
a wider lane gives the same value. -/
def Obligations.MacBounds : Prop :=
  (∀ a alpha b : Sample,
    (-1073709056 ≤ s16 alpha * s16 b ∧ s16 alpha * s16 b ≤ 1073741824) ∧
    (-1073741824 ≤ mac a alpha b ∧ mac a alpha b ≤ 1073774591) ∧
    (macPattern a alpha b = u32 (mac a alpha b) ∧ s32 (macPattern a alpha b) = mac a alpha b) ∧
    (2 ^ 30 ≤ s16 alpha * s16 b → s16 alpha = -32768 ∧ s16 b = -32768) ∧
    (∀ width : Nat, 32 ≤ width → (BitVec.ofInt width (mac a alpha b)).toInt = mac a alpha b)) ∧
  (∃ a alpha b : Sample, mac a alpha b = 1073774591 ∧ (2 ^ 30 - 1 : Int) < mac a alpha b) ∧
  (∃ a alpha b : Sample, mac a alpha b = -1073741824) ∧
  (∃ alpha b : Sample, s16 alpha * s16 b = -1073709056) ∧
  (∃ alpha b : Sample, s16 alpha * s16 b = 1073741824)

/-- R115: the sign and zero laws, the extremes of each sign, and when the result saturates. -/
def Obligations.ProductSigns : Prop :=
  ∀ a alpha b : Sample,
    (s16 alpha = 0 ∨ s16 b = 0 → s16 alpha * s16 b = 0 ∧ mac a alpha b = s16 a ∧ axpySample a alpha b = a) ∧
    (0 < s16 alpha → 0 < s16 b → 0 < s16 alpha * s16 b ∧ s16 alpha * s16 b ≤ 32767 * 32767) ∧
    (s16 alpha < 0 → s16 b < 0 → 0 < s16 alpha * s16 b ∧ s16 alpha * s16 b ≤ (-32768) * (-32768)) ∧
    (0 < s16 alpha → s16 b < 0 → s16 alpha * s16 b < 0 ∧ 32767 * (-32768) ≤ s16 alpha * s16 b) ∧
    (s16 alpha < 0 → 0 < s16 b → s16 alpha * s16 b < 0 ∧ (-32768) * 32767 ≤ s16 alpha * s16 b) ∧
    (clamp (mac a alpha b) < mac a alpha b ↔ mac a alpha b > 32767) ∧
    (mac a alpha b < clamp (mac a alpha b) ↔ mac a alpha b < -32768)

/-- R116: the distance of two samples, its range with both extremes, and that it is 0 only for equal patterns. -/
def Obligations.AbsdiffRange : Prop :=
  (∀ r t : Sample,
    ((absdiff r t : Int) = |s16 r - s16 t|) ∧ absdiff r t ≤ 65535 ∧ (absdiff r t = 0 ↔ r = t)) ∧
  absdiff 0x7FFF 0x8000 = 65535 ∧ absdiff 0x8000 0x7FFF = 65535

/-! ## The commands that use no memory -/

/-- R120: NOP's word is 0, and NOP changes no state, busy or idle. -/
def Obligations.NopChangesNothing : Prop :=
  decode 0x00000000 = .command .nop ∧ (∀ s : State, exec .nop s = .next s) ∧
  ∀ (s : State) (rest : List Event), s.writesNext 0x0C 0x00000000 rest →
    step s = .next { s with agenda := rest, turn := .host }

/-- R121: MAC's word; its own step; and the whole command from an idle unit, with everything it writes and everything it
leaves. -/
def Obligations.MacCommand : Prop :=
  decode 0x00000001 = .command .mac ∧
  (∀ s r, Running .mac s r → r.accRaced = false →
    exec .mac s = .next { s with
      acc := u32 (mac r.snap.opa r.snap.alpha r.snap.opb)
      res := u16 (clamp (mac r.snap.opa r.snap.alpha r.snap.opb))
      status := { s.status with busy := false, done := true }
      run := none }) ∧
  (∀ s : State, s.status.busy = false →
    wholeCommand .mac 1 s = .next { s with
      acc := u32 (mac s.opa s.alpha s.opb)
      res := u16 (clamp (mac s.opa s.alpha s.opb))
      status := s.status.success
      turn := .unit
      run := none })

/-- R122: CLAMP's word; its own step; and the whole command from an idle unit, with everything it writes and everything
it leaves, for every 32-bit value in ACC. AccWrittenDuringClamp says what a host write to ACC meanwhile changes. -/
def Obligations.ClampCommand : Prop :=
  decode 0x00000002 = .command .clamp ∧
  (∀ s r, Running .clamp s r → r.accRaced = false →
    exec .clamp s = .next { s with
      res := u16 (clamp (s32 r.snap.acc))
      status := { s.status with busy := false, done := true }
      run := none }) ∧
  (∀ s : State, s.status.busy = false →
    wholeCommand .clamp 1 s = .next { s with
      res := u16 (clamp (s32 s.acc))
      status := s.status.success
      turn := .unit
      run := none })

/-! ## The registers -/

/-- R29: a host write to STATUS, and the write of 0x0000000E. -/
def Obligations.StatusAcknowledge : Prop :=
  ∀ (s : State) (rest : List Event) (w : Word), s.writesNext 0x10 w rest →
    step s = .next { s with
      agenda := rest
      status :=
        { busy := s.status.busy
          done := if w.getLsbD 1 then false else s.status.done
          err := if w.getLsbD 2 then false else s.status.err
          ovr := if w.getLsbD 3 then false else s.status.ovr
          errcode := if w.getLsbD 2 then 0 else s.status.errcode
          equal := s.status.equal } } ∧
    (w = 0x0000000E → step s = .next { s with
      agenda := rest
      status := { s.status with done := false, err := false, ovr := false, errcode := 0 } })

/-- R23, R26, R30 to R39: what a host write does at every offset of the window but those of CMD and STATUS. The model
remembers a write to ACC while MAC or CLAMP runs (notes/assumptions/5.md, 6.md). -/
def Obligations.RegisterWrites : Prop :=
  ∀ (s : State) (rest : List Event) (o : Nat) (w : Word), s.writesNext o w rest →
    let s' := { s with agenda := rest }
    (o = 0x08 → step s = .next { s' with ctrlIE := w.getLsbD 0 }) ∧
    (o = 0x14 → step s = .next { s' with n := w }) ∧
    (o = 0x18 → step s = .next { s' with alpha := w.extractLsb' 0 16 }) ∧
    (o = 0x1C → step s = .next { s' with aAddr := w }) ∧
    (o = 0x20 → step s = .next { s' with bAddr := w }) ∧
    (o = 0x24 → step s = .next { s' with yAddr := w }) ∧
    (o = 0x28 → step s = .next { s' with opa := w.extractLsb' 0 16 }) ∧
    (o = 0x2C → step s = .next { s' with opb := w.extractLsb' 0 16 }) ∧
    (o = 0x30 → step s = .next { s' with
      acc := w
      run := s.run.map fun r => if r.snap.op = .mac ∨ r.snap.op = .clamp then { r with accRaced := true } else r }) ∧
    ((o = 0x00 ∨ o = 0x04 ∨ o = 0x34 ∨ o = 0x38 ∨ o = 0x3C ∨ o = 0x40 ∨ (0x44 ≤ o ∧ o < 0x100 ∧ o % 4 = 0)) →
      step s = .next s')

/-- R23 to R41, R48: what a host read returns while the unit is idle, at every offset of the window, and that it
changes no register. A STATUS read of an idle unit ends the loans (notes/assumptions/8.md). -/
def Obligations.RegisterReadsWhileIdle : Prop :=
  ∀ (s : State) (rest : List Event) (o : Nat), s.Inv → s.run = none → s.readsNext o rest → o < 0x100 → o % 4 = 0 →
    ∃ v : Word,
      step s = .next { s with agenda := rest, rdata := v, loans := if o = 0x10 then [] else s.loans } ∧
      (o = 0x00 → v = 0x51530001) ∧
      (o = 0x04 → v.getLsbD 0 = s.target.hasVector ∧ v.extractLsb' 1 7 = 0 ∧
        (v.extractLsb' 8 24).toNat = if s.target.hasVector then s.target.vlmax else 1) ∧
      (o = 0x08 → v.getLsbD 0 = s.ctrlIE ∧ v.extractLsb' 1 31 = 0) ∧
      (o = 0x0C → v = 0) ∧
      (o = 0x10 → v.getLsbD 0 = s.status.busy ∧ v.getLsbD 1 = s.status.done ∧ v.getLsbD 2 = s.status.err ∧
        v.getLsbD 3 = s.status.ovr ∧ v.extractLsb' 4 4 = s.status.errcode ∧ v.getLsbD 8 = s.status.equal ∧
        v.extractLsb' 9 23 = 0) ∧
      (o = 0x14 → v = s.n) ∧ (o = 0x18 → v = s.alpha.signExtend 32) ∧
      (o = 0x1C → v = s.aAddr) ∧ (o = 0x20 → v = s.bAddr) ∧ (o = 0x24 → v = s.yAddr) ∧
      (o = 0x28 → v = s.opa.signExtend 32) ∧ (o = 0x2C → v = s.opb.signExtend 32) ∧
      (o = 0x30 → v = s.acc) ∧ (o = 0x34 → v = s.res.signExtend 32) ∧ (o = 0x38 → v = s.maxdiff) ∧
      (o = 0x3C → v = s.processed) ∧ (o = 0x40 → v = s.erraddr) ∧ (0x44 ≤ o → v = 0)

/-- R31, R35, R36: a 16-bit register keeps bits 15:0 of the word written and reads back sign-extended, whether or not a
command runs. -/
def Obligations.SixteenBitRegistersReadBack : Prop :=
  ∀ (s t : State) (rest : List Event) (o : Nat) (w : Word), o = 0x18 ∨ o = 0x28 ∨ o = 0x2C →
    s.writesNext o w (.regRead (.offset o) 4 :: rest) → step s = .next t →
    (if o = 0x18 then t.alpha else if o = 0x28 then t.opa else t.opb) = w.extractLsb' 0 16 ∧
    step t = .next { t with agenda := rest, rdata := u32 (s16 (w.extractLsb' 0 16)) }

/-- R23, O13: a host access is refused as an undefined one exactly when it is not a 32-bit access at a word-aligned offset
below 0x100. Any other completes, but for one: a CMD write that would start a command with a buffer in memory that is not
ordinary is refused for that (R65, notes/assumptions/14.md). -/
def Obligations.UndefinedAccessesAreRefused : Prop :=
  ∀ (s : State) (rest : List Event) (place : Place) (size : Nat) (w : Word),
    let defined := size = 4 ∧ ∃ o, place.resolve s.target = some o ∧ o % 4 = 0 ∧ o < 0x100
    (s.agenda = .regRead place size :: rest →
      (defined → ∃ t, step s = .next t) ∧ (¬ defined → step s = .refused .portAccess)) ∧
    (s.agenda = .regWrite place size w :: rest →
      let misplaced := place.resolve s.target = some 0x0C ∧ s.status.busy = false ∧
        ∃ i, decode w = .command i ∧ (capture i s).issueError = none ∧ (capture i s).inOrdinaryMemory s.target = false
      (defined → ¬ misplaced → ∃ t, step s = .next t) ∧
      (defined → misplaced → step s = .refused .notOrdinaryMemory) ∧
      (¬ defined → step s = .refused .portAccess))

/-- R48, R23: what a host read returns while a command runs, with no change of a register. PROCESSED reads
a value in [0, n], never below one read before during the command, whichever command runs (notes/assumptions/7.md). -/
def Obligations.RegisterReadsWhileBusy : Prop :=
  ∀ (s : State) (rest : List Event) (o : Nat) (r : Run), s.Inv → s.run = some r → s.readsNext o rest → o < 0x100 →
    o % 4 = 0 →
    ∃ t : State, step s = .next t ∧ SameRegisters s t ∧ t.mem = s.mem ∧ t.loans = s.loans ∧
      (∃ r', t.run = some r' ∧ r' = { r with seen := r'.seen } ∧ r.seen ≤ r'.seen ∧
        (o = 0x3C → t.rdata.toNat = r'.seen ∧ r'.seen ≤ r.snap.n.toNat)) ∧
      (o = 0x00 → t.rdata = 0x51530001) ∧ (o = 0x04 → t.rdata = capWord s.target) ∧
      (o = 0x08 → t.rdata = ctrlWord s.ctrlIE) ∧ (o = 0x0C → t.rdata = 0) ∧
      (o = 0x10 → t.rdata.extractLsb' 0 8 = s.status.word.extractLsb' 0 8 ∧ t.rdata.extractLsb' 9 23 = 0 ∧
        (r.snap.op ≠ .compare → t.rdata = s.status.word)) ∧
      (o = 0x14 → t.rdata = s.n) ∧ (o = 0x18 → t.rdata = s.alpha.signExtend 32) ∧
      (o = 0x1C → t.rdata = s.aAddr) ∧ (o = 0x20 → t.rdata = s.bAddr) ∧ (o = 0x24 → t.rdata = s.yAddr) ∧
      (o = 0x28 → t.rdata = s.opa.signExtend 32) ∧ (o = 0x2C → t.rdata = s.opb.signExtend 32) ∧
      (o = 0x30 → r.snap.op ≠ .mac → t.rdata = s.acc) ∧
      (o = 0x34 → (∃ p : Sample, t.rdata = p.signExtend 32) ∧
        (r.snap.op ≠ .mac → r.snap.op ≠ .clamp → t.rdata = s.res.signExtend 32)) ∧
      (o = 0x38 → r.snap.op ≠ .compare → t.rdata = s.maxdiff) ∧
      (o = 0x40 → t.rdata = s.erraddr) ∧ (0x44 ≤ o → t.rdata = 0)

/-- R48, O10, O11: the values that R48 leaves open are all possible: whatever value of the register's range is named,
some draw makes the read return it. -/
def Obligations.OpenReadsTakeEveryValue : Prop :=
  ∀ (s : State) (rest : List Event) (o : Nat) (r : Run) (v : Word), s.Inv → s.run = some r → s.readsNext o rest →
    (o = 0x30 ∧ r.snap.op = .mac) ∨
    (o = 0x34 ∧ (r.snap.op = .mac ∨ r.snap.op = .clamp) ∧ ∃ p : Sample, v = p.signExtend 32) ∨
    (o = 0x38 ∧ r.snap.op = .compare) ∨
    (o = 0x10 ∧ r.snap.op = .compare ∧ ∃ b, v = { s.status with equal := b }.word) ∨
    (o = 0x3C ∧ r.seen ≤ v.toNat ∧ v.toNat ≤ r.snap.n.toNat) →
    ∃ (f : Feed Nat) (t : State), step { s with choices := f } = .next t ∧ t.rdata = v

/-- R49: a host write while a command runs is performed at once and leaves the snapshot and the strip; a STATUS write
can change only OVR; and ACC written during MAC is, after completion, any value: the one the draw gives, and some draw
gives each. That a write during CLAMP is remembered too is the model's bookkeeping for D29 (notes/assumptions/6.md). -/
def Obligations.WritesWhileBusy : Prop :=
  (∀ (s : State) (rest : List Event) (o : Nat) (w : Word) (r : Run), s.Inv → s.run = some r →
    s.writesNext o w rest →
    (o ∈ [0x08, 0x14, 0x18, 0x1C, 0x20, 0x24, 0x28, 0x2C, 0x30] →
      ∃ t, step s = .next t ∧ t.run = some { r with
          accRaced := r.accRaced || decide (o = 0x30 ∧ (r.snap.op = .mac ∨ r.snap.op = .clamp)) } ∧
        t.status = s.status ∧ t.mem = s.mem ∧ t.processed = s.processed ∧ t.res = s.res ∧ t.maxdiff = s.maxdiff ∧
        t.erraddr = s.erraddr ∧
        t.ctrlIE = (if o = 0x08 then w.getLsbD 0 else s.ctrlIE) ∧
        t.n = (if o = 0x14 then w else s.n) ∧
        t.alpha = (if o = 0x18 then w.extractLsb' 0 16 else s.alpha) ∧
        t.aAddr = (if o = 0x1C then w else s.aAddr) ∧
        t.bAddr = (if o = 0x20 then w else s.bAddr) ∧
        t.yAddr = (if o = 0x24 then w else s.yAddr) ∧
        t.opa = (if o = 0x28 then w.extractLsb' 0 16 else s.opa) ∧
        t.opb = (if o = 0x2C then w.extractLsb' 0 16 else s.opb) ∧
        t.acc = (if o = 0x30 then w else s.acc)) ∧
    (o = 0x10 → step s = .next { s with
      agenda := rest, status := { s.status with ovr := s.status.ovr && !w.getLsbD 3 } })) ∧
  (∀ (s : State) (r : Run), Running .mac s r → r.accRaced = true →
    (∃ t, exec .mac s = .next t ∧
      t = { s with
        acc := t.acc, choices := t.choices, drawn := t.drawn
        res := u16 (clamp (mac r.snap.opa r.snap.alpha r.snap.opb))
        status := { s.status with busy := false, done := true }
        run := none }) ∧
    ∀ v : Word, ∃ f t, exec .mac { s with choices := f } = .next t ∧ t.acc = v)

/-- D29, R122: a host write to ACC while CLAMP runs leaves ACC, after completion, at any value: the one the draw gives,
and some draw gives each. The rest is as CLAMP always leaves it. R49 and R244 name MAC only; the model follows the
decision they rest on (notes/assumptions/6.md). -/
def Obligations.AccWrittenDuringClamp : Prop :=
  ∀ (s : State) (r : Run), Running .clamp s r → r.accRaced = true →
    (∃ t, exec .clamp s = .next t ∧
      t = { s with
        acc := t.acc, choices := t.choices, drawn := t.drawn
        res := u16 (clamp (s32 r.snap.acc))
        status := { s.status with busy := false, done := true }
        run := none }) ∧
    ∀ v : Word, ∃ f t, exec .clamp { s with choices := f } = .next t ∧ t.acc = v

/-- R28, R46, R210: the interrupt line, after every way DONE and IE change. -/
def Obligations.InterruptLine : Prop :=
  (∀ s : State, s.irq = true ↔ s.ctrlIE = true ∧ s.status.done = true) ∧
  (∀ (s : State) (rest : List Event), s.agenda = .irqSample :: rest →
    ∃ t, step s = .next t ∧ t.rdata = (if s.irq then 1 else 0) ∧ SameRegisters s t) ∧
  (∀ (s : State) (rest : List Event) (w : Word), s.writesNext 0x10 w rest →
    ∃ t, step s = .next t ∧ t.irq = (s.irq && !w.getLsbD 1)) ∧
  (∀ (s : State) (rest : List Event) (w : Word), s.writesNext 0x08 w rest →
    ∃ t, step s = .next t ∧ t.irq = (w.getLsbD 0 && s.status.done) ∧ t.status = s.status) ∧
  (∀ (s t : State), s.Inv → step s = .next t → s.agenda.head? ≠ some .reset → s.run ≠ none → t.run = none →
    t.irq = s.ctrlIE) ∧
  (∀ (s t : State), s.Inv → step s = .next t → s.run = none → t.run ≠ none → t.irq = false) ∧
  (∀ (s : State) (rest : List Event) (w : Word), s.Inv → s.run = none → s.writesNext 0x0C w rest →
    ((∃ why, decode w = .illegal why) ∨
      ∃ i, decode w = .command i ∧ i ≠ .nop ∧ (capture i s).issueError ≠ none) →
    ∃ t, step s = .next t ∧ t.run = none ∧ t.status.done = true ∧ t.irq = s.ctrlIE)

/-! ## Reset -/

/-- R47: every register, the controller and the interrupt line after reset, at power-on and by a later reset step, for
every installation; and memory, which reset does not initialise: a reset step changes no byte but in the output of an
AXPY command that it abandons (R230). -/
def Obligations.ResetValues : Prop :=
  (∃ t : Target, State.reset = State.resetOn t ∧ t.wf = true) ∧
  (∀ (s : State) (rest : List Event), s.Inv → s.agenda = .reset :: rest →
    ∃ u, step s = .next u ∧ SameRegisters (State.resetOn s.target) u ∧ u.run = none ∧ u.irq = false ∧
      ∀ a, Memory.readByte u.mem a = Memory.readByte s.mem a ∨
        ∃ r, s.run = some r ∧ IsAxpy r.snap.op ∧ inBuffer r.snap r.snap.yAddr a) ∧
  ∀ t : Target,
    let s := State.resetOn t
    s.readValue .id = 0x51530001 ∧
    ((s.readValue .cap).getLsbD 0 = t.hasVector ∧ (s.readValue .cap).extractLsb' 1 7 = 0 ∧
      (s.readValue .cap).extractLsb' 8 24 = BitVec.ofNat 24 (if t.hasVector then t.vlmax else 1)) ∧
    s.readValue .ctrl = 0 ∧ s.readValue .cmd = 0 ∧ s.readValue .status = 0 ∧ s.readValue .n = 0 ∧
    s.readValue .alpha = 0 ∧ s.readValue .aAddr = 0 ∧ s.readValue .bAddr = 0 ∧ s.readValue .yAddr = 0 ∧
    s.readValue .opa = 0 ∧ s.readValue .opb = 0 ∧ s.readValue .acc = 0 ∧ s.readValue .res = 0 ∧
    s.readValue .maxdiff = 0 ∧ s.readValue .processed = 0 ∧ s.readValue .erraddr = 0 ∧
    s.alpha = 0 ∧ s.opa = 0 ∧ s.opb = 0 ∧ s.res = 0 ∧
    s.run = none ∧ s.irq = false

/-- The invariant holds right after reset (R28, R43, R47). -/
def Obligations.ResetKeepsInv : Prop :=
  State.reset.Inv ∧ ∀ t : Target, t.wf = true → (State.resetOn t).Inv

/-- R230: a reset at any time. Registers, controller and interrupt line take their reset values; memory keeps its
contents but for what R230 allows of an abandoned AXPY command. What surrounds the unit stays (notes/assumptions/19.md). -/
def Obligations.ResetStep : Prop :=
  ∀ (s : State) (rest : List Event), s.Inv → s.agenda = .reset :: rest →
    ∃ t : State, step s = .next t ∧
      t = { State.resetOn s.target with
        mem := t.mem, agenda := rest, turn := s.turn, capin := s.capin, responses := s.responses
        choices := t.choices, drawn := t.drawn, rdata := s.rdata } ∧
      t.irq = false ∧
      (s.run = none → t.mem = s.mem) ∧
      (∀ r, s.run = some r → ¬ IsAxpy r.snap.op → t.mem = s.mem) ∧
      (∀ m r, s.run = some r → IsAxpy r.snap.op → AxpyProgress m s r → AxpyAbandoned m s r t)

/-- R209, R230, O7, O8: every outcome allowed of the strip open at a reset, and of the strip in which a transaction fails,
is possible: whichever of its elements with both reads made are named, stored already or not, some draws leave those with
their results and the others of them old; and whichever transaction of the strip may be made next, some draws of this kind
make it the one that fails (R207). -/
def Obligations.OpenStripTakesEveryOutcome : Prop :=
  ∀ (m : Memory) (s : State) (r : Run) (named : Nat → Bool), s.Inv → s.run = some r → IsAxpy r.snap.op →
    AxpyProgress m s r →
    let asNamed (t : State) := ∀ j l, r.lanes[j]? = some l → l.a ≠ none → l.b ≠ none →
      if named j then yNew m r.snap t (s.processed.toNat + j) else yOld m r.snap t (s.processed.toNat + j)
    (∀ rest, s.agenda = .reset :: rest →
      ∃ (f : Feed Nat) (t : State), step { s with choices := f } = .next t ∧ asNamed t) ∧
    (s.turn = .unit → r.hung = false → s.target.coherent = true → s.Placed → s.afterChoice.response = .error →
      ∀ x ∈ enabledFrom r.snap.op.writesY 0 r.lanes,
        ∃ (f : Feed Nat) (t : State), exec r.snap.op { s with choices := f } = .next t ∧ t.run = none ∧
          t.status.errcode = 5 ∧ t.erraddr.toNat = x.address r.snap s.processed.toNat ∧ asNamed t)

/-! ## Memory -/

/-- R63: the bytes of a sample, in memory and out of it, and the host's 32-bit view of two elements. -/
def Obligations.LittleEndian : Prop :=
  ∀ (m : Memory) (e : Nat) (v : Sample), Memory.wf m → e + 2 ≤ 2 ^ 32 →
    Memory.readSample m e = Memory.readByte m (e + 1) ++ Memory.readByte m e ∧
    Memory.readByte (Memory.writeSample m e v) e = v.extractLsb' 0 8 ∧
    Memory.readByte (Memory.writeSample m e v) (e + 1) = v.extractLsb' 8 8 ∧
    (∀ a, a ≠ e → a ≠ e + 1 → Memory.readByte (Memory.writeSample m e v) a = Memory.readByte m a) ∧
    (∀ (base : Word) (k : Nat), base.toNat % 4 = 0 →
      let word : Word := Memory.readByte m (base.toNat + 4 * k + 3) ++ Memory.readByte m (base.toNat + 4 * k + 2)
        ++ Memory.readByte m (base.toNat + 4 * k + 1) ++ Memory.readByte m (base.toNat + 4 * k)
      word.extractLsb' 0 16 = Memory.readSample m (elem base (2 * k)) ∧
      word.extractLsb' 16 16 = Memory.readSample m (elem base (2 * k + 1)))

/-- R70, R104, R240, R241: from the acceptance of a memory command until its completion is observed, by a STATUS read with
BUSY = 0 or by `irq` = 1, or a reset, a host write of a byte of its buffers and a host read of a byte of its output are
refused as a race; any other access inside the address space is performed. That a reset ends a loan and that all hosts
count as one observer is notes/assumptions/8.md; that every other host access is performed and succeeds is
notes/assumptions/11.md and, on memory that is not ordinary, 20.md. -/
def Obligations.BorrowedBuffersAreRefused : Prop :=
  (∀ (s : State) (r : Run), s.Inv → s.run = some r → IsMemoryCommand r.snap.op → r.snap ∈ s.loans) ∧
  (∀ (s t : State) (k : Snapshot), k ∈ s.loans → step s = .next t →
    k ∈ t.loans ∨ s.agenda.head? = some .reset ∨ (s.agenda.head? = some .irqSample ∧ s.irq = true) ∨
    (s.status.busy = false ∧ (s.agenda.head? = some .wait ∨ ∃ rest, s.readsNext 0x10 rest))) ∧
  (∀ (s : State) (rest : List Event) (e : Nat) (v : Sample), e + 2 ≤ 2 ^ 32 → s.agenda = .memWrite e v :: rest →
    ((∃ k ∈ s.loans, Borrowed k e ∨ Borrowed k (e + 1)) → step s = .refused .race) ∧
    (¬ (∃ k ∈ s.loans, Borrowed k e ∨ Borrowed k (e + 1)) →
      step s = .next { s with agenda := rest, mem := Memory.writeSample s.mem e v })) ∧
  (∀ (s : State) (rest : List Event) (e : Nat), e + 2 ≤ 2 ^ 32 → s.agenda = .memRead e :: rest →
    let lent := ∃ k ∈ s.loans, k.op.writesY = true ∧ (inBuffer k k.yAddr e ∨ inBuffer k k.yAddr (e + 1))
    (lent → step s = .refused .race) ∧
    (¬ lent → step s = .next { s with agenda := rest, rdata := (Memory.readSample s.mem e).setWidth 32 }))

/-- R61, R104, R230: a step changes a byte of memory only in the output of a running AXPY command, or by the host's own
store. -/
def Obligations.OnlyAxpyAndHostStoresWriteMemory : Prop :=
  ∀ (s t : State) (a : Nat), s.Inv → step s = .next t → Memory.readByte t.mem a ≠ Memory.readByte s.mem a →
    (∃ r, s.run = some r ∧ IsAxpy r.snap.op ∧ inBuffer r.snap r.snap.yAddr a) ∨
    (∃ e v rest, s.agenda = .memWrite e v :: rest ∧ (a = e ∨ a = e + 1))

/-- R38, R39, R40, R41, R203 and the operand registers' rules: which steps can change each register. ACC at the end of a
CLAMP during which a host wrote it is D29's (notes/assumptions/6.md). -/
def Obligations.WhichStepsWriteWhichRegister : Prop :=
  ∀ (s t : State), s.Inv → step s = .next t → s.agenda.head? ≠ some .reset →
    let ends (ops : List Instr) := ∃ r, s.run = some r ∧ r.snap.op ∈ ops ∧ t.run = none
    let written (o : Nat) := ∃ w rest, s.writesNext o w rest
    (t.res ≠ s.res → ends [.mac, .clamp]) ∧
    (t.maxdiff ≠ s.maxdiff → ends [.compare]) ∧
    (t.status.equal ≠ s.status.equal → ends [.compare]) ∧
    (t.acc ≠ s.acc → ends [.mac] ∨ written 0x30 ∨ (ends [.clamp] ∧ ∃ r, s.run = some r ∧ r.accRaced = true)) ∧
    (t.erraddr ≠ s.erraddr → t.status.err = true ∧ t.status.done = true ∧ 2 ≤ t.status.errcode.toNat ∧
      t.status.errcode.toNat ≤ 5) ∧
    (t.processed ≠ s.processed → ∃ r', t.run = some r' ∧ IsMemoryCommand r'.snap.op ∧
      (s.run = none → t.processed = 0) ∧ (s.run ≠ none → s.processed.toNat < t.processed.toNat)) ∧
    (s.status.ovr = true → t.status.ovr = false → ∃ w rest, s.writesNext 0x10 w rest ∧ w.getLsbD 3 = true) ∧
    (s.status.ovr = false → t.status.ovr = true → s.status.busy = true ∧
      ∃ w rest, s.writesNext 0x0C w rest ∧ w ≠ 0) ∧
    (t.ctrlIE ≠ s.ctrlIE → written 0x08) ∧ (t.n ≠ s.n → written 0x14) ∧ (t.alpha ≠ s.alpha → written 0x18) ∧
    (t.aAddr ≠ s.aAddr → written 0x1C) ∧ (t.bAddr ≠ s.bAddr → written 0x20) ∧ (t.yAddr ≠ s.yAddr → written 0x24) ∧
    (t.opa ≠ s.opa → written 0x28) ∧ (t.opb ≠ s.opb → written 0x2C) ∧
    t.target = s.target

/-! ## The strip-mining controller -/

/-- R61, R68 items 2 and 3: the transactions a strip may make next are the reads not yet made and the stores, not yet
made, of lanes with both samples there; some draw picks each of them, and no draw picks another. -/
def Obligations.EnabledTransactions : Prop :=
  ∀ (op : Instr) (ls : List Lane),
    (∀ x : Xact, x ∈ enabledFrom op.writesY 0 ls ↔
      ∃ l, ls[x.lane]? = some l ∧
        ((x = .readA x.lane ∧ l.a = none) ∨ (x = .readB x.lane ∧ l.b = none) ∨
         (x = .store x.lane ∧ op.writesY = true ∧ l.a ≠ none ∧ l.b ≠ none ∧ l.stored = false))) ∧
    (∀ x ∈ enabledFrom op.writesY 0 ls, ∃ d, pick (enabledFrom op.writesY 0 ls) d = some x) ∧
    (∀ (x : Xact) (d : Nat), pick (enabledFrom op.writesY 0 ls) d = some x → x ∈ enabledFrom op.writesY 0 ls)

/-- R7, R44, R61, R63, R152, R153: with a strip open on a platform that answers, the own step of AXPY_REF, AXPY_VEC and
COMPARE is one transaction that is not yet made: a read of element p + j of a (ref) or of b (test), or the store of the
clamped sum to element p + j of y. R157: with every transaction of the strip made, PROCESSED grows by its chunk. That this
falls in the step of the strip's last transaction is notes/assumptions/15.md, and that COMPARE's running report takes the
lanes in only then, where R180 updates it lane by lane, is notes/assumptions/16.md. -/
def Obligations.OneTransactionPerStep : Prop :=
  ∀ (op : Instr) (s : State) (r : Run), IsMemoryCommand op → Running op s r → r.lanes ≠ [] →
    s.target.coherent = true → s.Placed → s.afterChoice.response = .ok →
    ∃ (j : Nat) (l l' : Lane) (m : Memory), r.lanes[j]? = some l ∧
      ((l.a = none ∧ m = s.mem ∧
          l' = { l with a := some (Memory.readSample s.mem (elem r.snap.aAddr (s.processed.toNat + j))) }) ∨
       (l.b = none ∧ m = s.mem ∧
          l' = { l with b := some (Memory.readSample s.mem (elem r.snap.bAddr (s.processed.toNat + j))) }) ∨
       (op ≠ .compare ∧ l.stored = false ∧
          l' = { l with
            stored := true, before := some (Memory.readSample s.mem (elem r.snap.yAddr (s.processed.toNat + j))) } ∧
          ∃ a b, l.a = some a ∧ l.b = some b ∧
          m = Memory.writeSample s.mem (elem r.snap.yAddr (s.processed.toNat + j))
            (u16 (clamp (s16 a + s16 r.snap.alpha * s16 b))))) ∧
      let ls := r.lanes.set j l'
      let u := { s with
        mem := m, choices := s.choices.advance, responses := s.responses.advance, drawn := s.drawn + 2 }
      exec op s = .next
        (if ls.all (fun l => l.a.isSome && l.b.isSome && (decide (op = .compare) || l.stored)) then
          { u with
            processed := s.processed + BitVec.ofNat 32 ls.length
            run := some { r with
              lanes := []
              eq := if op = .compare then (laneReport ls r.eq r.md).1 else r.eq
              md := if op = .compare then (laneReport ls r.eq r.md).2 else r.md } }
        else { u with run := some { r with lanes := ls } })

/-- R131, R156: AXPY_REF, and AXPY_VEC and COMPARE without the vector capability, open strips of one element, with no
CAPIN answer. That such a strip opens in the step of its first transaction is the model's choice, notes/assumptions/15.md
(R7 lists no step that only opens a strip). -/
def Obligations.ScalarStripsHaveOneElement : Prop :=
  ∀ (op : Instr) (s : State) (r : Run), IsMemoryCommand op → op = .axpyRef ∨ s.target.hasVector = false →
    Running op s r → r.lanes = [] → s.processed.toNat < r.snap.n.toNat →
    exec op s = exec op { s with run := some { r with lanes := [Lane.fresh] } } ∧
    ∀ t, exec op s = .next t → t.capin = s.capin

/-- R151, R161: with the vector capability, AXPY_VEC and COMPARE take one CAPIN answer w at the start of a strip, whose
chunk is min(w, n - p); CAPIN has no other effect; an answer outside [1, VLMAX] is refused. -/
def Obligations.ChunkWidth : Prop :=
  ∀ (op : Instr) (s : State) (r : Run), op = .axpyVec ∨ op = .compare → Running op s r → s.target.hasVector = true →
    r.lanes = [] → s.processed.toNat < r.snap.n.toNat →
    let w := s.chunkAnswer
    let c := min w (r.snap.n.toNat - s.processed.toNat)
    (1 ≤ w → w ≤ s.target.vlmax →
      1 ≤ c ∧ c ≤ s.target.vlmax ∧ s.processed.toNat + c ≤ r.snap.n.toNat ∧
      exec op s = .next { s with
        capin := s.capin.advance, drawn := s.drawn + 1
        run := some { r with lanes := List.replicate c Lane.fresh } }) ∧
    (w = 0 ∨ s.target.vlmax < w → exec op s = .refused .capinContract) ∧
    (s.CapinLegal → 1 ≤ w ∧ w ≤ s.target.vlmax) ∧
    (∀ v rest, s.capin.listed = v :: rest → w = v)

/-- R130, R150, R180, R201: the last own step of a memory command. AXPY_REF and AXPY_VEC complete; COMPARE writes its
report to STATUS.EQUAL and MAXDIFF and completes, in one step (notes/assumptions/15.md). -/
def Obligations.LastStepCompletes : Prop :=
  (∀ (op : Instr) (s : State) (r : Run), IsAxpy op → Running op s r → s.processed = r.snap.n →
    exec op s = .next { s with status := { s.status with busy := false, done := true }, run := none }) ∧
  (∀ (s : State) (r : Run), Running .compare s r → s.processed = r.snap.n →
    exec .compare s = .next { s with
      status := { s.status with busy := false, done := true, equal := r.eq }
      maxdiff := BitVec.ofNat 32 r.md
      run := none })

/-- R134, R155, R185: with N = 0 a memory command makes no transaction, takes no CAPIN answer, checks no address and
completes without error; COMPARE reports EQUAL = 1 and MAXDIFF = 0. -/
def Obligations.EmptyInput : Prop :=
  (∀ (op : Instr) (s : State), IsAxpy op → s.status.busy = false → s.n = 0 →
    wholeCommand op 1 s = .next { s with
      status := s.status.success
      processed := 0
      loans := capture op s :: s.loans
      turn := .unit
      run := none }) ∧
  (∀ s : State, s.status.busy = false → s.n = 0 →
    wholeCommand .compare 1 s = .next { s with
      status := { s.status.success with equal := true }
      maxdiff := 0
      processed := 0
      loans := capture .compare s :: s.loans
      turn := .unit
      run := none })

/-! ## Errors and stuck units -/

/-- R207, R209: a transaction that gets an error response ends the command with error BUS, and what a command that ends
so leaves: PROCESSED, ERRADDR (the address of the transaction that failed, an element of the strip), memory, and
COMPARE's report over the completed strips. The unit reports the one failed transaction it has made
(notes/assumptions/9.md), in the step of that transaction (notes/assumptions/15.md). -/
def Obligations.StateAfterBusError : Prop :=
  (∀ (op : Instr) (s : State) (r : Run), IsMemoryCommand op → Running op s r → r.lanes ≠ [] →
    s.target.coherent = true → s.Placed → s.afterChoice.response = .error →
    ∃ t, exec op s = .next t ∧ t.run = none ∧ t.status.err = true) ∧
  (∀ (m : Memory) (op : Instr) (s t : State) (r : Run), IsMemoryCommand op → Running op s r → exec op s = .next t →
    t.run = none → t.status.err = true →
    t.status = { s.status with
      busy := false, done := true, err := true, errcode := 5
      equal := if op = .compare then r.eq else s.status.equal } ∧
    t.processed = s.processed ∧ SameOperands s t ∧
    (∃ x, pick (enabledFrom op.writesY 0
        (if r.lanes = [] then [Lane.fresh] else r.lanes)) s.choice = some x ∧
      t.erraddr.toNat = x.address r.snap s.processed.toNat) ∧
    (∃ b ∈ r.snap.bases, ∃ i, s.processed.toNat ≤ i ∧ i < s.processed.toNat + max 1 r.lanes.length ∧
      i < r.snap.n.toNat ∧ t.erraddr.toNat = elem b i) ∧
    (IsAxpy op → t.maxdiff = s.maxdiff ∧ (AxpyProgress m s r → AxpyAbandoned m s r t)) ∧
    (op = .compare → t.mem = s.mem ∧ (CompareProgress m s r →
      (t.status.equal = true ↔ allEqual m r.snap s.processed.toNat) ∧
      t.maxdiff.toNat = maxDistance m r.snap s.processed.toNat)))

/-- R252: a transaction that never gets a response leaves the unit BUSY with no enabled step; a host WAIT on it is a
hang; only reset leaves that state. -/
def Obligations.StuckUntilReset : Prop :=
  (∀ (op : Instr) (s : State) (r : Run), IsMemoryCommand op → Running op s r → r.lanes ≠ [] →
    s.target.coherent = true → s.Placed → s.afterChoice.response = .silent →
    exec op s = .next { s with
      choices := s.choices.advance, responses := s.responses.advance, drawn := s.drawn + 2
      run := some { r with hung := true } }) ∧
  (∀ (s : State) (r : Run), s.Inv → s.run = some r → r.hung = true →
    s.status.busy = true ∧
    (s.turn = .unit → exec r.snap.op s = .next s) ∧
    (∀ rest, s.agenda = .wait :: rest → step s = .fault .hang) ∧
    (s.agenda = [] → step s = .fault .stuck) ∧
    (∀ t, step s = .next t → s.agenda.head? ≠ some .reset →
      (∃ r', t.run = some r' ∧ r'.hung = true) ∧
      (t.mem = s.mem ∨ ∃ e v, s.agenda.head? = some (.memWrite e v))) ∧
    (∀ rest, s.agenda = .reset :: rest → ∃ t, step s = .next t ∧ t.run = none))

/-- R65, R74, O5, O15: the issue of a command with a byte of a buffer in a range that is not ordinary memory is refused,
and any other that passes the checks is accepted; a transaction is refused on a platform without one memory, and the one
the draw picks where its bytes are not ordinary memory. R65 refuses such a placement; that this falls in the issue step,
and that a transaction with COHERENT_MMP false is refused (R74 and O5 say that claims require it true), is
notes/assumptions/14.md. -/
def Obligations.PlatformRefusals : Prop :=
  (∀ (op : Instr) (s : State), IsMemoryCommand op → s.turn = .host → s.status.busy = false →
    (capture op s).issueError = none →
    let misplaced := ∃ b ∈ (capture op s).bases, ∃ a, inBuffer (capture op s) b a ∧ inDevice s.target a
    (misplaced → exec op s = .refused .notOrdinaryMemory) ∧
    (¬ misplaced → ∃ t r, exec op s = .next t ∧ t.run = some r ∧ r.snap = capture op s)) ∧
  (∀ (op : Instr) (s : State) (r : Run), IsMemoryCommand op → Running op s r → r.lanes ≠ [] →
    (s.target.coherent = false → exec op s = .refused .notCoherent) ∧
    (∀ x, pick (enabledFrom op.writesY 0 r.lanes) s.choice = some x → s.target.coherent = true →
      (inDevice s.target (x.address r.snap s.processed.toNat) ∨
        inDevice s.target (x.address r.snap s.processed.toNat + 1)) →
      exec op s = .refused .notOrdinaryMemory))

/-- R65: every step keeps the running command's buffers in ordinary memory. So no own step is refused for it, and no byte
of memory that is not ordinary changes but by the host's own store (notes/assumptions/20.md); also when a strip is
abandoned. -/
def Obligations.BuffersStayInOrdinaryMemory : Prop :=
  (∀ t : Target, (State.resetOn t).Placed) ∧
  (∀ s t : State, s.Placed → step s = .next t → t.Placed) ∧
  (∀ (op : Instr) (s : State) (r : Run), Running op s r → s.Placed → exec op s ≠ .refused .notOrdinaryMemory) ∧
  (∀ (s t : State) (a : Nat), s.Inv → s.Placed → step s = .next t → inDevice s.target a →
    Memory.readByte t.mem a ≠ Memory.readByte s.mem a → ∃ e v, s.agenda.head? = some (.memWrite e v))

/-! ## Whole commands -/

/-- What every step keeps (R8, R28, R39, R43, R44, R48, R49, R61, R68, R70, R131, R151, R184): the memory stays
canonical, STATUS legal, the controller's state consistent with STATUS.BUSY and inside its bounds. -/
def Obligations.StepKeepsInv : Prop :=
  ∀ s t : State, s.Inv → step s = .next t → t.Inv

/-- R49, R68, R132, R158, R209, R230: what every step keeps while an AXPY command runs that was accepted with the memory
m. It stays under way with its results up to PROCESSED, or completes with all its results, or ends with error BUS, or is
abandoned by reset. A host store that is not refused changes m itself, outside every buffer of the command. -/
def Obligations.StepKeepsAxpyProgress : Prop :=
  ∀ (m : Memory) (s t : State) (r : Run), Memory.wf m → s.Inv → s.run = some r → IsAxpy r.snap.op →
    AxpyProgress m s r → step s = .next t →
    let m' := match s.agenda with
      | .memWrite e v :: _ => Memory.writeSample m e v
      | _ => m
    (∃ r', t.run = some r' ∧ r'.snap = r.snap ∧ AxpyProgress m' t r') ∨
    (Succeeded t ∧ t.processed = r.snap.n ∧ (∀ i, i < r.snap.n.toNat → yNew m r.snap t i) ∧
      OutsideYKept m r.snap t) ∨
    (t.run = none ∧ t.status.err = true ∧ t.status.errcode = 5 ∧ t.processed = s.processed ∧
      AxpyAbandoned m s r t) ∨
    (s.agenda.head? = some .reset ∧ AxpyAbandoned m s r t)

/-- R49, R70, R180, R209, R230: what every step of the machine keeps while a COMPARE runs that was accepted with the
memory m: its running report is that of the completed elements. The command goes on, or completes with the report over
all n elements, or ends with error BUS and the report over the completed ones, or is abandoned by reset. A host store that
is not refused changes m itself, outside both buffers. -/
def Obligations.CompareStepKeepsProgress : Prop :=
  ∀ (m : Memory) (s t : State) (r : Run), s.Inv → s.run = some r → r.snap.op = .compare → CompareProgress m s r →
    step s = .next t →
    let m' := match s.agenda with
      | .memWrite e v :: _ => Memory.writeSample m e v
      | _ => m
    t.mem = m' ∧
    ((∃ r', t.run = some r' ∧ r'.snap = r.snap ∧ CompareProgress m' t r') ∨
     (Succeeded t ∧ t.processed = r.snap.n ∧ (t.status.equal = true ↔ allEqual m r.snap r.snap.n.toNat) ∧
       t.maxdiff.toNat = maxDistance m r.snap r.snap.n.toNat) ∨
     (t.run = none ∧ t.status.err = true ∧ t.status.errcode = 5 ∧ t.processed = s.processed ∧
       (t.status.equal = true ↔ allEqual m r.snap s.processed.toNat) ∧
       t.maxdiff.toNat = maxDistance m r.snap s.processed.toNat) ∨
     (s.agenda.head? = some .reset ∧ t.run = none))

/-- R132, R158: the result of an AXPY command that completes without error, whatever the draws, the CAPIN answers and
the other responses, with everything else it leaves as it was; also in place. -/
def Obligations.AxpyResult : Prop :=
  ∀ (op : Instr) (k : Nat) (s t : State), IsAxpy op → Ready op s → wholeCommand op k s = .next t → Succeeded t →
    (∀ i, i < s.n.toNat → Memory.readSample t.mem (elem s.yAddr i) =
      u16 (clamp (s16 (Memory.readSample s.mem (elem s.aAddr i)) +
        s16 s.alpha * s16 (Memory.readSample s.mem (elem s.bAddr i))))) ∧
    (∀ a, a < s.yAddr.toNat ∨ s.yAddr.toNat + 2 * s.n.toNat ≤ a →
      Memory.readByte t.mem a = Memory.readByte s.mem a) ∧
    t = { s with
      status := s.status.success
      mem := t.mem
      processed := s.n
      loans := capture op s :: s.loans
      turn := .unit
      capin := t.capin, responses := t.responses, choices := t.choices, drawn := t.drawn
      run := none }

/-- R130, R251: on a platform that answers every transaction, AXPY_REF completes without error after exactly 3n
transactions, not before, and its completion leaves y with its results. That these are 3n + 1 own steps, since no step only
opens or closes a strip, is the model's choice, notes/assumptions/15.md. -/
def Obligations.AxpyRefCompletes : Prop :=
  ∀ s : State, Ready .axpyRef s → s.Serves →
    ∃ t, wholeCommand .axpyRef (3 * s.n.toNat + 1) s = .next t ∧ Took s t (3 * s.n.toNat) 0 ∧
      t.status = s.status.success ∧ t.run = none ∧ t.processed = s.n ∧
      (∀ i, i < s.n.toNat → Memory.readSample t.mem (elem s.yAddr i) =
        u16 (clamp (s16 (Memory.readSample s.mem (elem s.aAddr i)) +
          s16 s.alpha * s16 (Memory.readSample s.mem (elem s.bAddr i))))) ∧
      ∀ j u, j ≤ 3 * s.n.toNat → wholeCommand .axpyRef j s = .next u → u.run ≠ none

/-- R150, R154, R251: on a platform that answers every transaction, and with CAPIN answers in [1, VLMAX], AXPY_VEC
completes without error after 3n transactions and c CAPIN answers, whatever the answers: at most n and at least n / VLMAX
with the vector capability, none without it. That these are 3n + c + 1 own steps is the model's choice,
notes/assumptions/15.md, and that CAPIN always answers is notes/assumptions/21.md. -/
def Obligations.AxpyVecCompletes : Prop :=
  ∀ s : State, Ready .axpyVec s → s.Serves → s.CapinLegal →
    ∃ c t, c ≤ s.n.toNat ∧ (s.target.hasVector = true → s.n.toNat ≤ c * s.target.vlmax) ∧
      (s.target.hasVector = false → c = 0) ∧
      wholeCommand .axpyVec (3 * s.n.toNat + c + 1) s = .next t ∧ Took s t (3 * s.n.toNat) c ∧
      t.status = s.status.success ∧ t.run = none ∧ t.processed = s.n ∧
      ∀ i, i < s.n.toNat → Memory.readSample t.mem (elem s.yAddr i) =
        u16 (clamp (s16 (Memory.readSample s.mem (elem s.aAddr i)) +
          s16 s.alpha * s16 (Memory.readSample s.mem (elem s.bAddr i))))

/-- R181, R182, R184, R186, R188: COMPARE's report when it completes without error, whatever the draws and the CAPIN
answers; it writes no memory and no register but STATUS, MAXDIFF and PROCESSED, and a mismatch is no error. -/
def Obligations.CompareResult : Prop :=
  ∀ (k : Nat) (s t : State), Ready .compare s → wholeCommand .compare k s = .next t → Succeeded t →
    (t.status.equal = true ↔
      ∀ i, i < s.n.toNat → Memory.readSample s.mem (elem s.aAddr i) = Memory.readSample s.mem (elem s.bAddr i)) ∧
    (∀ i, i < s.n.toNat → absdiff (Memory.readSample s.mem (elem s.aAddr i)) (Memory.readSample s.mem (elem s.bAddr i))
      ≤ t.maxdiff.toNat) ∧
    (t.maxdiff = 0 ∨ ∃ i, i < s.n.toNat ∧
      absdiff (Memory.readSample s.mem (elem s.aAddr i)) (Memory.readSample s.mem (elem s.bAddr i))
        = t.maxdiff.toNat) ∧
    t.maxdiff.toNat ≤ 65535 ∧ (t.status.equal = true ↔ t.maxdiff = 0) ∧
    t = { s with
      status := { s.status.success with equal := t.status.equal }
      maxdiff := t.maxdiff
      processed := s.n
      loans := capture .compare s :: s.loans
      turn := .unit
      capin := t.capin, responses := t.responses, choices := t.choices, drawn := t.drawn
      run := none }

/-- R183, R251: on a platform that answers every transaction, and with CAPIN answers in [1, VLMAX], COMPARE completes
without error after 2n reads and c CAPIN answers (at most n and at least n / VLMAX with the vector capability, none
without it), and never before the 2n reads, whatever it has found. That these are 2n + c + 1 own steps is the model's
choice, notes/assumptions/15.md, and that CAPIN always answers is notes/assumptions/21.md. -/
def Obligations.CompareCompletes : Prop :=
  ∀ s : State, Ready .compare s → s.Serves → s.CapinLegal →
    ∃ c t, c ≤ s.n.toNat ∧ (s.target.hasVector = true → s.n.toNat ≤ c * s.target.vlmax) ∧
      (s.target.hasVector = false → c = 0) ∧
      wholeCommand .compare (2 * s.n.toNat + c + 1) s = .next t ∧ Took s t (2 * s.n.toNat) c ∧ t.run = none ∧
      t.status = { s.status.success with
        equal := decide (maxDistance s.mem (capture .compare s) s.n.toNat = 0) } ∧
      t.maxdiff.toNat = maxDistance s.mem (capture .compare s) s.n.toNat ∧ t.processed = s.n ∧ t.mem = s.mem ∧
      ∀ j u, j ≤ 2 * s.n.toNat → wholeCommand .compare j s = .next u → u.run ≠ none

/-- R133: two AXPY_REF commands with equal snapshots and equal buffer contents at acceptance leave equal y contents, equal
PROCESSED and equal STATUS, whatever the draws, the platform and the rest of memory. OVR and EQUAL, which no AXPY command
writes (R28), are equal where they were equal before. -/
def Obligations.AxpyRefIsDeterministic : Prop :=
  ∀ (k k' : Nat) (s s' t t' : State), Ready .axpyRef s → Ready .axpyRef s' → SameOperands s s' →
    (∀ i, i < s.n.toNat →
      Memory.readSample s'.mem (elem s.aAddr i) = Memory.readSample s.mem (elem s.aAddr i) ∧
      Memory.readSample s'.mem (elem s.bAddr i) = Memory.readSample s.mem (elem s.bAddr i)) →
    wholeCommand .axpyRef k s = .next t → wholeCommand .axpyRef k' s' = .next t' → Succeeded t → Succeeded t' →
    (∀ i, i < s.n.toNat →
      Memory.readSample t'.mem (elem s.yAddr i) = Memory.readSample t.mem (elem s.yAddr i)) ∧
    t'.processed = t.processed ∧
    (s'.status.ovr = s.status.ovr → s'.status.equal = s.status.equal → t'.status = t.status)

/-- R159: for every HAS_VECTOR, every VLMAX and every sequence of CAPIN answers, AXPY_VEC leaves the same memory, the same
PROCESSED and the same STATUS as AXPY_REF with the same operands and the same memory at acceptance, when both complete
without error. The two units may differ in everything else: the target, the draws, the responses. -/
def Obligations.VectorEqualsReference : Prop :=
  ∀ (k k' : Nat) (s s' t t' : State), Ready .axpyRef s → Ready .axpyVec s' → SameOperands s s' → s'.mem = s.mem →
    wholeCommand .axpyRef k s = .next t → wholeCommand .axpyVec k' s' = .next t' → Succeeded t → Succeeded t' →
    t'.mem = t.mem ∧ t'.processed = s.n ∧ t.processed = s.n ∧
    (s'.status.ovr = s.status.ovr → s'.status.equal = s.status.equal → t'.status = t.status)

/-- R156: without the vector capability every own step of AXPY_VEC is the step AXPY_REF would take, with the same
transaction and the same outcome, and no CAPIN answer is taken. -/
def Obligations.FallbackIsReference : Prop :=
  ∀ (s : State) (r : Run), Running .axpyVec s r → s.target.hasVector = false →
    (∀ t, exec .axpyVec s = .next t →
      exec .axpyRef (s.withOp .axpyRef) = .next (t.withOp .axpyRef) ∧ t.capin = s.capin) ∧
    (∀ f, exec .axpyVec s = .fault f → exec .axpyRef (s.withOp .axpyRef) = .fault f) ∧
    (∀ f, exec .axpyVec s = .refused f → exec .axpyRef (s.withOp .axpyRef) = .refused f)

/-- R189: the acceptance run. AXPY_REF into R, AXPY_VEC with the same inputs into a disjoint T, COMPARE of R with T, all
completing without error: EQUAL = 1 and MAXDIFF = 0. R does not touch the inputs, which the second command reads again. -/
def Obligations.AcceptanceRun : Prop :=
  ∀ (T : Word) (k₁ k₂ k₃ : Nat) (s t₁ t₂ t₃ : State),
    let L := 2 * s.n.toNat
    let apart (x y : Word) := x.toNat + L ≤ y.toNat ∨ y.toNat + L ≤ x.toNat
    Ready .axpyRef s → apart s.yAddr s.aAddr → apart s.yAddr s.bAddr → apart s.yAddr T →
    (capture .axpyVec { s with yAddr := T }).issueError = none →
    wholeCommand .axpyRef k₁ s = .next t₁ → Succeeded t₁ →
    wholeCommand .axpyVec k₂ { t₁ with yAddr := T } = .next t₂ → Succeeded t₂ →
    wholeCommand .compare k₃ { t₂ with aAddr := s.yAddr, bAddr := T } = .next t₃ → Succeeded t₃ →
    t₃.status.equal = true ∧ t₃.maxdiff = 0

/-- R43, R200, R251: a whole command is what the machine itself runs: with a CMD write of the command's word as the only
event to come, k + 1 steps of the machine leave the state that the command's issue and k own steps leave. -/
def Obligations.MachineRunsWholeCommands : Prop :=
  ∀ (op : Instr) (k : Nat) (s t : State), op ≠ .nop → Ready op s → s.Serves → s.agenda = [] → 1 ≤ k →
    wholeCommand op k s = .next t →
    stepTimes (k + 1) { s with agenda := [.regWrite (.offset 0x0C) 4 (encode op)] } = .next t

/-! ## The host script -/

/-- R103: the pseudo-instructions' transactions, and WAIT, which reads STATUS and goes on while BUSY = 1 (the unit takes a
step between two reads, notes/assumptions/3.md). -/
def Obligations.ScriptPseudoInstructions : Prop :=
  (∀ op : Instr, (ScriptLine.cmd op).events = [.regWrite (.offset 0x0C) 4 (encode op)]) ∧
  (∀ op : Instr, (ScriptLine.run op).events = [.regWrite (.offset 0x0C) 4 (encode op), .wait]) ∧
  ScriptLine.ack.events = [.regWrite (.offset 0x10) 4 0x0000000E] ∧
  (∀ a b y n : Int, (ScriptLine.setbuf a b y n).events =
    [.regWrite (.offset 0x1C) 4 (u32 a), .regWrite (.offset 0x20) 4 (u32 b), .regWrite (.offset 0x24) 4 (u32 y),
     .regWrite (.offset 0x14) 4 (u32 n)]) ∧
  (∀ (s : State) (rest : List Event), s.Inv → s.agenda = .wait :: rest →
    (s.run = none → step s = .next { s with agenda := rest, rdata := s.status.word, loans := [] }) ∧
    (∀ r, s.run = some r → r.hung = false →
      ∃ t, step s = .next t ∧ t.agenda = .unit :: .wait :: rest ∧ SameRegisters s t ∧ t.run = s.run ∧
        t.rdata.getLsbD 0 = true))

end
end

