-- ==== Sys2Proof/Laws/Memory.lean ====
section
/-! SUPPORT. The laws of the sample memory: what a read after a write gives, the canonical form, and that memories
with equal reads are equal. -/

namespace Sys2Proof.Machine

/-- The empty memory is in canonical form. -/
theorem Memory.wf_nil : Memory.wf [] := by
  simp [Memory.wf]

/-- A byte below every listed address reads as the fill. -/
theorem Memory.readByte_below (m : Memory) (a : Nat) (h : ∀ c ∈ m, a < c.1) :
    Memory.readByte m a = Memory.fill := by
  induction m with
  | nil => rfl
  | cons c rest ih =>
    have hc : c.1 ≠ a := fun e => absurd (h c (by simp)) (by omega)
    simp only [Memory.readByte, hc, if_false]
    exact ih fun d hd => h d (by simp [hd])

/-- What a byte put at an address of a canonical memory changes: that byte, and no other. -/
theorem Memory.readByte_put (m : Memory) (h : Memory.wf m) (a b : Nat) (v : Byte) :
    Memory.readByte (Memory.put m a v) b = if b = a then v else Memory.readByte m b := by
  induction m with
  | nil =>
    by_cases hv : v = Memory.fill <;> by_cases hb : b = a <;> simp_all [Memory.put, Memory.readByte, eq_comm]
  | cons c rest ih =>
    obtain ⟨k, u⟩ := c
    have hrest : Memory.wf rest := ⟨(List.pairwise_cons.mp h.1).2, fun d hd => h.2 d (by simp [hd])⟩
    have hk : ∀ d ∈ rest, k < d.1 := (List.pairwise_cons.mp h.1).1
    simp only [Memory.put]
    split
    · have hlow : Memory.readByte ((k, u) :: rest) a = Memory.fill :=
        Memory.readByte_below _ a fun d hd => by
          rcases List.mem_cons.mp hd with rfl | hd
          · assumption
          · have := hk d hd; omega
      split
      · by_cases hb : b = a <;> simp_all
      · by_cases hb : b = a <;> simp_all [Memory.readByte, eq_comm]
    · split
      · subst_vars
        have hlow : Memory.readByte rest k = Memory.fill := Memory.readByte_below _ k hk
        split
        · by_cases hb : b = k <;> simp_all [Memory.readByte, eq_comm]
        · by_cases hb : b = k <;> simp_all [Memory.readByte, eq_comm]
      · simp only [Memory.readByte, ih hrest]
        by_cases hb : b = a
        · subst hb
          have : k ≠ b := by omega
          simp [this]
        · simp [hb]

/-- Every entry after a put is the new one or an old one. -/
theorem Memory.mem_put (m : Memory) (a : Nat) (v : Byte) (d : Host.Cell) (h : d ∈ Memory.put m a v) :
    (d = (a, v) ∧ v ≠ Memory.fill) ∨ d ∈ m := by
  induction m with
  | nil =>
    by_cases hv : v = Memory.fill <;> simp_all [Memory.put]
  | cons c rest ih =>
    obtain ⟨k, u⟩ := c
    simp only [Memory.put] at h
    split at h
    · split at h
      · exact .inr h
      · rcases List.mem_cons.mp h with rfl | h
        · exact .inl ⟨rfl, by assumption⟩
        · exact .inr h
    · split at h
      · split at h
        · exact .inr (by simp [h])
        · rcases List.mem_cons.mp h with rfl | h
          · exact .inl ⟨rfl, by assumption⟩
          · exact .inr (by simp [h])
      · rcases List.mem_cons.mp h with rfl | h
        · exact .inr (by simp)
        · rcases ih h with h | h
          · exact .inl h
          · exact .inr (by simp [h])

/-- Putting a byte keeps the canonical form. -/
theorem Memory.put_wf (m : Memory) (h : Memory.wf m) (a : Nat) (v : Byte) (ha : a < Memory.size) :
    Memory.wf (Memory.put m a v) := by
  refine ⟨?_, fun d hd => ?_⟩
  · induction m with
    | nil =>
      by_cases hv : v = Memory.fill <;> simp [Memory.put, hv]
    | cons c rest ih =>
      obtain ⟨k, u⟩ := c
      have hrest : Memory.wf rest := ⟨(List.pairwise_cons.mp h.1).2, fun d hd => h.2 d (by simp [hd])⟩
      have hk : ∀ d ∈ rest, k < d.1 := (List.pairwise_cons.mp h.1).1
      simp only [Memory.put]
      split
      · split
        · exact h.1
        · refine List.pairwise_cons.mpr ⟨fun d hd => ?_, h.1⟩
          rcases List.mem_cons.mp hd with rfl | hd
          · assumption
          · have := hk d hd; simp only; omega
      · split
        · split
          · exact hrest.1
          · subst_vars
            exact List.pairwise_cons.mpr ⟨hk, hrest.1⟩
        · refine List.pairwise_cons.mpr ⟨fun d hd => ?_, ih hrest⟩
          rcases Memory.mem_put rest a v d hd with ⟨rfl, -⟩ | hd
          · simp only; omega
          · exact hk d hd
  · rcases Memory.mem_put m a v d hd with ⟨rfl, hv⟩ | hd
    · exact ⟨ha, hv⟩
    · exact h.2 d hd

/-- A byte store keeps the canonical form. -/
theorem Memory.writeByte_wf (m : Memory) (h : Memory.wf m) (a : Nat) (v : Byte) :
    Memory.wf (Memory.writeByte m a v) := by
  unfold Memory.writeByte
  split
  · exact Memory.put_wf m h a v (by assumption)
  · exact h

/-- What a byte read gives after a byte store. -/
theorem Memory.readByte_writeByte (m : Memory) (h : Memory.wf m) (a b : Nat) (v : Byte) (ha : a < Memory.size) :
    Memory.readByte (Memory.writeByte m a v) b = if b = a then v else Memory.readByte m b := by
  unfold Memory.writeByte
  rw [if_pos ha]
  exact Memory.readByte_put m h a b v

/-- A byte store leaves every other byte alone. -/
theorem Memory.readByte_writeByte_other (m : Memory) (h : Memory.wf m) (a b : Nat) (v : Byte) (hb : b ≠ a) :
    Memory.readByte (Memory.writeByte m a v) b = Memory.readByte m b := by
  by_cases ha : a < Memory.size
  · rw [Memory.readByte_writeByte m h a b v ha, if_neg hb]
  · simp [Memory.writeByte, ha]

/-- A sample store keeps the canonical form. -/
theorem Memory.writeSample_wf (m : Memory) (h : Memory.wf m) (e : Nat) (v : Sample) :
    Memory.wf (Memory.writeSample m e v) :=
  Memory.writeByte_wf _ (Memory.writeByte_wf _ h _ _) _ _

/-- A sample store leaves every byte outside its two alone. -/
theorem Memory.readByte_writeSample_other (m : Memory) (h : Memory.wf m) (e a : Nat) (v : Sample)
    (ha : a ≠ e ∧ a ≠ e + 1) : Memory.readByte (Memory.writeSample m e v) a = Memory.readByte m a := by
  unfold Memory.writeSample
  rw [Memory.readByte_writeByte_other _ (Memory.writeByte_wf _ h _ _) _ _ _ ha.2,
    Memory.readByte_writeByte_other _ h _ _ _ ha.1]

/-- R63: a sample read after a store of the sample gives it back. -/
theorem Memory.readSample_writeSample (m : Memory) (h : Memory.wf m) (e : Nat) (v : Sample)
    (he : Memory.holds e = true) : Memory.readSample (Memory.writeSample m e v) e = v := by
  have hs : e + 2 ≤ Memory.size := by simpa [Memory.holds] using he
  unfold Memory.readSample Memory.writeSample
  rw [Memory.readByte_writeByte _ (Memory.writeByte_wf _ h _ _) _ _ _ (by omega), if_pos rfl,
    Memory.readByte_writeByte _ (Memory.writeByte_wf _ h _ _) _ _ _ (by omega), if_neg (by omega),
    Memory.readByte_writeByte _ h _ _ _ (by omega), if_pos rfl]
  ext i hi
  simp only [BitVec.getElem_append, BitVec.getElem_extractLsb']
  split <;> simp_all [BitVec.getLsbD_eq_getElem]

/-- A sample store leaves every sample that shares no byte with it alone. -/
theorem Memory.readSample_writeSample_other (m : Memory) (h : Memory.wf m) (e f : Nat) (v : Sample)
    (hf : f + 2 ≤ e ∨ e + 2 ≤ f) : Memory.readSample (Memory.writeSample m e v) f = Memory.readSample m f := by
  unfold Memory.readSample
  rw [Memory.readByte_writeSample_other m h e _ v (by omega), Memory.readByte_writeSample_other m h e _ v (by omega)]

/-- A sample is its two bytes: equal bytes, equal samples. -/
theorem Memory.readSample_congr (m m' : Memory) (e : Nat) (h : Memory.readByte m e = Memory.readByte m' e)
    (h' : Memory.readByte m (e + 1) = Memory.readByte m' (e + 1)) :
    Memory.readSample m e = Memory.readSample m' e := by
  unfold Memory.readSample
  rw [h, h']

/-- Equal samples have equal bytes. -/
theorem Memory.readByte_of_readSample (m m' : Memory) (e : Nat)
    (h : Memory.readSample m e = Memory.readSample m' e) :
    Memory.readByte m e = Memory.readByte m' e ∧ Memory.readByte m (e + 1) = Memory.readByte m' (e + 1) := by
  unfold Memory.readSample at h
  have hlow := congrArg (fun x : BitVec 16 => x.extractLsb' 0 8) h
  have hhigh := congrArg (fun x : BitVec 16 => x.extractLsb' 8 8) h
  refine ⟨?_, ?_⟩
  · ext i hi
    have := congrArg (fun x : BitVec 8 => x.getLsbD i) hlow
    simp only [BitVec.getLsbD_extractLsb', BitVec.getLsbD_append] at this
    simpa [hi, BitVec.getLsbD_eq_getElem hi] using this
  · ext i hi
    have := congrArg (fun x : BitVec 8 => x.getLsbD i) hhigh
    simp only [BitVec.getLsbD_extractLsb', BitVec.getLsbD_append] at this
    simpa [hi, BitVec.getLsbD_eq_getElem hi] using this

/-- A listed byte reads as it is listed. -/
theorem Memory.readByte_of_mem (m : Memory) (h : Memory.wf m) (c : Host.Cell) (hc : c ∈ m) :
    Memory.readByte m c.1 = c.2 := by
  induction m with
  | nil => simp at hc
  | cons d rest ih =>
    have hrest : Memory.wf rest := ⟨(List.pairwise_cons.mp h.1).2, fun x hx => h.2 x (by simp [hx])⟩
    obtain ⟨k, u⟩ := d
    rcases List.mem_cons.mp hc with rfl | hc
    · simp [Memory.readByte]
    · have hlt : k < c.1 := (List.pairwise_cons.mp h.1).1 c hc
      have : k ≠ c.1 := by omega
      simp [Memory.readByte, this, ih hrest hc]

/-- The tail of a canonical memory is canonical, and its head lies below it. -/
theorem Memory.wf_tail (c : Host.Cell) (rest : Memory) (h : Memory.wf (c :: rest)) :
    Memory.wf rest ∧ (∀ d ∈ rest, c.1 < d.1) ∧ c.2 ≠ Memory.fill :=
  ⟨⟨(List.pairwise_cons.mp h.1).2, fun d hd => h.2 d (by simp [hd])⟩, (List.pairwise_cons.mp h.1).1,
    (h.2 c (by simp)).2⟩

/-- Canonical memories whose bytes all read the same are equal. -/
theorem Memory.ext_of_reads (m m' : Memory) (h : Memory.wf m) (h' : Memory.wf m')
    (heq : ∀ a, Memory.readByte m a = Memory.readByte m' a) : m = m' := by
  induction m generalizing m' with
  | nil =>
    cases m' with
    | nil => rfl
    | cons d ys =>
      have := Memory.readByte_of_mem _ h' d (by simp)
      rw [← heq] at this
      exact absurd this.symm (h'.2 d (by simp)).2
  | cons c xs ih =>
    cases m' with
    | nil =>
      have := Memory.readByte_of_mem _ h c (by simp)
      rw [heq] at this
      exact absurd this.symm (h.2 c (by simp)).2
    | cons d ys =>
      obtain ⟨hx, hcx, hc⟩ := Memory.wf_tail c xs h
      obtain ⟨hy, hdy, hd⟩ := Memory.wf_tail d ys h'
      have rc := Memory.readByte_of_mem _ h c (by simp)
      have rd := Memory.readByte_of_mem _ h' d (by simp)
      have key : c.1 = d.1 := by
        rcases Nat.lt_trichotomy c.1 d.1 with hlt | hlt | hlt
        · have : Memory.readByte (d :: ys) c.1 = Memory.fill := Memory.readByte_below _ _ fun z hz => by
            rcases List.mem_cons.mp hz with rfl | hz
            · exact hlt
            · exact Nat.lt_trans hlt (hdy z hz)
          exact absurd (rc.symm.trans ((heq _).trans this)) hc
        · exact hlt
        · have : Memory.readByte (c :: xs) d.1 = Memory.fill := Memory.readByte_below _ _ fun z hz => by
            rcases List.mem_cons.mp hz with rfl | hz
            · exact hlt
            · exact Nat.lt_trans hlt (hcx z hz)
          exact absurd (rd.symm.trans ((heq _).symm.trans this)) hd
      have val : c.2 = d.2 := by rw [← rc, ← rd, ← key, heq]
      have cd : c = d := Prod.ext key val
      subst cd
      rw [ih ys hx hy fun a => ?_]
      by_cases ha : a = c.1
      · subst ha
        rw [Memory.readByte_below xs _ hcx, Memory.readByte_below ys _ hdy]
      · have := heq a
        obtain ⟨k, u⟩ := c
        have hk : k ≠ a := fun e => ha e.symm
        simpa [Memory.readByte, hk] using this

end Sys2Proof.Machine
end

