-- ==== Sys2Proof/Laws/State.lean ====
section
/-! SUPPORT. What each update of the state does to each field, one lemma a field. -/

namespace Sys2Proof.Machine

/-! ## The fields after a draw -/

@[simp] theorem State.afterChoice_ctrlIE (s : State) : s.afterChoice.ctrlIE = s.ctrlIE := rfl
@[simp] theorem State.afterChoice_status (s : State) : s.afterChoice.status = s.status := rfl
@[simp] theorem State.afterChoice_n (s : State) : s.afterChoice.n = s.n := rfl
@[simp] theorem State.afterChoice_alpha (s : State) : s.afterChoice.alpha = s.alpha := rfl
@[simp] theorem State.afterChoice_aAddr (s : State) : s.afterChoice.aAddr = s.aAddr := rfl
@[simp] theorem State.afterChoice_bAddr (s : State) : s.afterChoice.bAddr = s.bAddr := rfl
@[simp] theorem State.afterChoice_yAddr (s : State) : s.afterChoice.yAddr = s.yAddr := rfl
@[simp] theorem State.afterChoice_opa (s : State) : s.afterChoice.opa = s.opa := rfl
@[simp] theorem State.afterChoice_opb (s : State) : s.afterChoice.opb = s.opb := rfl
@[simp] theorem State.afterChoice_acc (s : State) : s.afterChoice.acc = s.acc := rfl
@[simp] theorem State.afterChoice_res (s : State) : s.afterChoice.res = s.res := rfl
@[simp] theorem State.afterChoice_maxdiff (s : State) : s.afterChoice.maxdiff = s.maxdiff := rfl
@[simp] theorem State.afterChoice_processed (s : State) : s.afterChoice.processed = s.processed := rfl
@[simp] theorem State.afterChoice_erraddr (s : State) : s.afterChoice.erraddr = s.erraddr := rfl
@[simp] theorem State.afterChoice_run (s : State) : s.afterChoice.run = s.run := rfl
@[simp] theorem State.afterChoice_target (s : State) : s.afterChoice.target = s.target := rfl
@[simp] theorem State.afterChoice_mem (s : State) : s.afterChoice.mem = s.mem := rfl
@[simp] theorem State.afterChoice_loans (s : State) : s.afterChoice.loans = s.loans := rfl
@[simp] theorem State.afterChoice_agenda (s : State) : s.afterChoice.agenda = s.agenda := rfl
@[simp] theorem State.afterChoice_turn (s : State) : s.afterChoice.turn = s.turn := rfl
@[simp] theorem State.afterChoice_capin (s : State) : s.afterChoice.capin = s.capin := rfl
@[simp] theorem State.afterChoice_responses (s : State) : s.afterChoice.responses = s.responses := rfl
@[simp] theorem State.afterChoice_choices (s : State) : s.afterChoice.choices = s.choices.advance := rfl
@[simp] theorem State.afterChoice_drawn (s : State) : s.afterChoice.drawn = s.drawn + 1 := rfl
@[simp] theorem State.afterChoice_rdata (s : State) : s.afterChoice.rdata = s.rdata := rfl

/-! ## The fields after a response of the memory system -/

@[simp] theorem State.afterResponse_ctrlIE (s : State) : s.afterResponse.ctrlIE = s.ctrlIE := rfl
@[simp] theorem State.afterResponse_status (s : State) : s.afterResponse.status = s.status := rfl
@[simp] theorem State.afterResponse_n (s : State) : s.afterResponse.n = s.n := rfl
@[simp] theorem State.afterResponse_alpha (s : State) : s.afterResponse.alpha = s.alpha := rfl
@[simp] theorem State.afterResponse_aAddr (s : State) : s.afterResponse.aAddr = s.aAddr := rfl
@[simp] theorem State.afterResponse_bAddr (s : State) : s.afterResponse.bAddr = s.bAddr := rfl
@[simp] theorem State.afterResponse_yAddr (s : State) : s.afterResponse.yAddr = s.yAddr := rfl
@[simp] theorem State.afterResponse_opa (s : State) : s.afterResponse.opa = s.opa := rfl
@[simp] theorem State.afterResponse_opb (s : State) : s.afterResponse.opb = s.opb := rfl
@[simp] theorem State.afterResponse_acc (s : State) : s.afterResponse.acc = s.acc := rfl
@[simp] theorem State.afterResponse_res (s : State) : s.afterResponse.res = s.res := rfl
@[simp] theorem State.afterResponse_maxdiff (s : State) : s.afterResponse.maxdiff = s.maxdiff := rfl
@[simp] theorem State.afterResponse_processed (s : State) : s.afterResponse.processed = s.processed := rfl
@[simp] theorem State.afterResponse_erraddr (s : State) : s.afterResponse.erraddr = s.erraddr := rfl
@[simp] theorem State.afterResponse_run (s : State) : s.afterResponse.run = s.run := rfl
@[simp] theorem State.afterResponse_target (s : State) : s.afterResponse.target = s.target := rfl
@[simp] theorem State.afterResponse_mem (s : State) : s.afterResponse.mem = s.mem := rfl
@[simp] theorem State.afterResponse_loans (s : State) : s.afterResponse.loans = s.loans := rfl
@[simp] theorem State.afterResponse_agenda (s : State) : s.afterResponse.agenda = s.agenda := rfl
@[simp] theorem State.afterResponse_turn (s : State) : s.afterResponse.turn = s.turn := rfl
@[simp] theorem State.afterResponse_capin (s : State) : s.afterResponse.capin = s.capin := rfl
@[simp] theorem State.afterResponse_responses (s : State) : s.afterResponse.responses = s.responses.advance := rfl
@[simp] theorem State.afterResponse_choices (s : State) : s.afterResponse.choices = s.choices := rfl
@[simp] theorem State.afterResponse_drawn (s : State) : s.afterResponse.drawn = s.drawn + 1 := rfl
@[simp] theorem State.afterResponse_rdata (s : State) : s.afterResponse.rdata = s.rdata := rfl

/-! ## The fields after a CAPIN answer -/

@[simp] theorem State.afterChunk_ctrlIE (s : State) : s.afterChunk.ctrlIE = s.ctrlIE := rfl
@[simp] theorem State.afterChunk_status (s : State) : s.afterChunk.status = s.status := rfl
@[simp] theorem State.afterChunk_n (s : State) : s.afterChunk.n = s.n := rfl
@[simp] theorem State.afterChunk_alpha (s : State) : s.afterChunk.alpha = s.alpha := rfl
@[simp] theorem State.afterChunk_aAddr (s : State) : s.afterChunk.aAddr = s.aAddr := rfl
@[simp] theorem State.afterChunk_bAddr (s : State) : s.afterChunk.bAddr = s.bAddr := rfl
@[simp] theorem State.afterChunk_yAddr (s : State) : s.afterChunk.yAddr = s.yAddr := rfl
@[simp] theorem State.afterChunk_opa (s : State) : s.afterChunk.opa = s.opa := rfl
@[simp] theorem State.afterChunk_opb (s : State) : s.afterChunk.opb = s.opb := rfl
@[simp] theorem State.afterChunk_acc (s : State) : s.afterChunk.acc = s.acc := rfl
@[simp] theorem State.afterChunk_res (s : State) : s.afterChunk.res = s.res := rfl
@[simp] theorem State.afterChunk_maxdiff (s : State) : s.afterChunk.maxdiff = s.maxdiff := rfl
@[simp] theorem State.afterChunk_processed (s : State) : s.afterChunk.processed = s.processed := rfl
@[simp] theorem State.afterChunk_erraddr (s : State) : s.afterChunk.erraddr = s.erraddr := rfl
@[simp] theorem State.afterChunk_run (s : State) : s.afterChunk.run = s.run := rfl
@[simp] theorem State.afterChunk_target (s : State) : s.afterChunk.target = s.target := rfl
@[simp] theorem State.afterChunk_mem (s : State) : s.afterChunk.mem = s.mem := rfl
@[simp] theorem State.afterChunk_loans (s : State) : s.afterChunk.loans = s.loans := rfl
@[simp] theorem State.afterChunk_agenda (s : State) : s.afterChunk.agenda = s.agenda := rfl
@[simp] theorem State.afterChunk_turn (s : State) : s.afterChunk.turn = s.turn := rfl
@[simp] theorem State.afterChunk_capin (s : State) : s.afterChunk.capin = s.capin.advance := rfl
@[simp] theorem State.afterChunk_responses (s : State) : s.afterChunk.responses = s.responses := rfl
@[simp] theorem State.afterChunk_choices (s : State) : s.afterChunk.choices = s.choices := rfl
@[simp] theorem State.afterChunk_drawn (s : State) : s.afterChunk.drawn = s.drawn + 1 := rfl
@[simp] theorem State.afterChunk_rdata (s : State) : s.afterChunk.rdata = s.rdata := rfl

/-! ## The fields after a completion (R201) -/

@[simp] theorem State.complete_ctrlIE (s : State) : s.complete.ctrlIE = s.ctrlIE := rfl
@[simp] theorem State.complete_status (s : State) : s.complete.status = s.status.completed := rfl
@[simp] theorem State.complete_n (s : State) : s.complete.n = s.n := rfl
@[simp] theorem State.complete_alpha (s : State) : s.complete.alpha = s.alpha := rfl
@[simp] theorem State.complete_aAddr (s : State) : s.complete.aAddr = s.aAddr := rfl
@[simp] theorem State.complete_bAddr (s : State) : s.complete.bAddr = s.bAddr := rfl
@[simp] theorem State.complete_yAddr (s : State) : s.complete.yAddr = s.yAddr := rfl
@[simp] theorem State.complete_opa (s : State) : s.complete.opa = s.opa := rfl
@[simp] theorem State.complete_opb (s : State) : s.complete.opb = s.opb := rfl
@[simp] theorem State.complete_acc (s : State) : s.complete.acc = s.acc := rfl
@[simp] theorem State.complete_res (s : State) : s.complete.res = s.res := rfl
@[simp] theorem State.complete_maxdiff (s : State) : s.complete.maxdiff = s.maxdiff := rfl
@[simp] theorem State.complete_processed (s : State) : s.complete.processed = s.processed := rfl
@[simp] theorem State.complete_erraddr (s : State) : s.complete.erraddr = s.erraddr := rfl
@[simp] theorem State.complete_run (s : State) : s.complete.run = none := rfl
@[simp] theorem State.complete_target (s : State) : s.complete.target = s.target := rfl
@[simp] theorem State.complete_mem (s : State) : s.complete.mem = s.mem := rfl
@[simp] theorem State.complete_loans (s : State) : s.complete.loans = s.loans := rfl
@[simp] theorem State.complete_agenda (s : State) : s.complete.agenda = s.agenda := rfl
@[simp] theorem State.complete_turn (s : State) : s.complete.turn = s.turn := rfl
@[simp] theorem State.complete_capin (s : State) : s.complete.capin = s.capin := rfl
@[simp] theorem State.complete_responses (s : State) : s.complete.responses = s.responses := rfl
@[simp] theorem State.complete_choices (s : State) : s.complete.choices = s.choices := rfl
@[simp] theorem State.complete_drawn (s : State) : s.complete.drawn = s.drawn := rfl
@[simp] theorem State.complete_rdata (s : State) : s.complete.rdata = s.rdata := rfl

/-! ## The fields after an error (R202) -/

@[simp] theorem State.raiseError_ctrlIE (s : State) (code : ErrCode) (addr : Option Word) :
    (s.raiseError code addr).ctrlIE = s.ctrlIE := rfl
@[simp] theorem State.raiseError_status (s : State) (code : ErrCode) (addr : Option Word) :
    (s.raiseError code addr).status = s.status.failed code := rfl
@[simp] theorem State.raiseError_n (s : State) (code : ErrCode) (addr : Option Word) :
    (s.raiseError code addr).n = s.n := rfl
@[simp] theorem State.raiseError_alpha (s : State) (code : ErrCode) (addr : Option Word) :
    (s.raiseError code addr).alpha = s.alpha := rfl
@[simp] theorem State.raiseError_aAddr (s : State) (code : ErrCode) (addr : Option Word) :
    (s.raiseError code addr).aAddr = s.aAddr := rfl
@[simp] theorem State.raiseError_bAddr (s : State) (code : ErrCode) (addr : Option Word) :
    (s.raiseError code addr).bAddr = s.bAddr := rfl
@[simp] theorem State.raiseError_yAddr (s : State) (code : ErrCode) (addr : Option Word) :
    (s.raiseError code addr).yAddr = s.yAddr := rfl
@[simp] theorem State.raiseError_opa (s : State) (code : ErrCode) (addr : Option Word) :
    (s.raiseError code addr).opa = s.opa := rfl
@[simp] theorem State.raiseError_opb (s : State) (code : ErrCode) (addr : Option Word) :
    (s.raiseError code addr).opb = s.opb := rfl
@[simp] theorem State.raiseError_acc (s : State) (code : ErrCode) (addr : Option Word) :
    (s.raiseError code addr).acc = s.acc := rfl
@[simp] theorem State.raiseError_res (s : State) (code : ErrCode) (addr : Option Word) :
    (s.raiseError code addr).res = s.res := rfl
@[simp] theorem State.raiseError_maxdiff (s : State) (code : ErrCode) (addr : Option Word) :
    (s.raiseError code addr).maxdiff = s.maxdiff := rfl
@[simp] theorem State.raiseError_processed (s : State) (code : ErrCode) (addr : Option Word) :
    (s.raiseError code addr).processed = s.processed := rfl
@[simp] theorem State.raiseError_erraddr (s : State) (code : ErrCode) (addr : Option Word) :
    (s.raiseError code addr).erraddr = addr.getD s.erraddr := rfl
@[simp] theorem State.raiseError_run (s : State) (code : ErrCode) (addr : Option Word) :
    (s.raiseError code addr).run = none := rfl
@[simp] theorem State.raiseError_target (s : State) (code : ErrCode) (addr : Option Word) :
    (s.raiseError code addr).target = s.target := rfl
@[simp] theorem State.raiseError_mem (s : State) (code : ErrCode) (addr : Option Word) :
    (s.raiseError code addr).mem = s.mem := rfl
@[simp] theorem State.raiseError_loans (s : State) (code : ErrCode) (addr : Option Word) :
    (s.raiseError code addr).loans = s.loans := rfl
@[simp] theorem State.raiseError_agenda (s : State) (code : ErrCode) (addr : Option Word) :
    (s.raiseError code addr).agenda = s.agenda := rfl
@[simp] theorem State.raiseError_turn (s : State) (code : ErrCode) (addr : Option Word) :
    (s.raiseError code addr).turn = s.turn := rfl
@[simp] theorem State.raiseError_capin (s : State) (code : ErrCode) (addr : Option Word) :
    (s.raiseError code addr).capin = s.capin := rfl
@[simp] theorem State.raiseError_responses (s : State) (code : ErrCode) (addr : Option Word) :
    (s.raiseError code addr).responses = s.responses := rfl
@[simp] theorem State.raiseError_choices (s : State) (code : ErrCode) (addr : Option Word) :
    (s.raiseError code addr).choices = s.choices := rfl
@[simp] theorem State.raiseError_drawn (s : State) (code : ErrCode) (addr : Option Word) :
    (s.raiseError code addr).drawn = s.drawn := rfl
@[simp] theorem State.raiseError_rdata (s : State) (code : ErrCode) (addr : Option Word) :
    (s.raiseError code addr).rdata = s.rdata := rfl

/-! ## The fields after a write to STATUS (R29) -/

@[simp] theorem State.acknowledge_ctrlIE (s : State) (w : Word) : (s.acknowledge w).ctrlIE = s.ctrlIE := rfl
@[simp] theorem State.acknowledge_status (s : State) (w : Word) :
    (s.acknowledge w).status = s.status.acknowledge w := rfl
@[simp] theorem State.acknowledge_n (s : State) (w : Word) : (s.acknowledge w).n = s.n := rfl
@[simp] theorem State.acknowledge_alpha (s : State) (w : Word) : (s.acknowledge w).alpha = s.alpha := rfl
@[simp] theorem State.acknowledge_aAddr (s : State) (w : Word) : (s.acknowledge w).aAddr = s.aAddr := rfl
@[simp] theorem State.acknowledge_bAddr (s : State) (w : Word) : (s.acknowledge w).bAddr = s.bAddr := rfl
@[simp] theorem State.acknowledge_yAddr (s : State) (w : Word) : (s.acknowledge w).yAddr = s.yAddr := rfl
@[simp] theorem State.acknowledge_opa (s : State) (w : Word) : (s.acknowledge w).opa = s.opa := rfl
@[simp] theorem State.acknowledge_opb (s : State) (w : Word) : (s.acknowledge w).opb = s.opb := rfl
@[simp] theorem State.acknowledge_acc (s : State) (w : Word) : (s.acknowledge w).acc = s.acc := rfl
@[simp] theorem State.acknowledge_res (s : State) (w : Word) : (s.acknowledge w).res = s.res := rfl
@[simp] theorem State.acknowledge_maxdiff (s : State) (w : Word) : (s.acknowledge w).maxdiff = s.maxdiff := rfl
@[simp] theorem State.acknowledge_processed (s : State) (w : Word) : (s.acknowledge w).processed = s.processed := rfl
@[simp] theorem State.acknowledge_erraddr (s : State) (w : Word) : (s.acknowledge w).erraddr = s.erraddr := rfl
@[simp] theorem State.acknowledge_run (s : State) (w : Word) : (s.acknowledge w).run = s.run := rfl
@[simp] theorem State.acknowledge_target (s : State) (w : Word) : (s.acknowledge w).target = s.target := rfl
@[simp] theorem State.acknowledge_mem (s : State) (w : Word) : (s.acknowledge w).mem = s.mem := rfl
@[simp] theorem State.acknowledge_loans (s : State) (w : Word) : (s.acknowledge w).loans = s.loans := rfl
@[simp] theorem State.acknowledge_agenda (s : State) (w : Word) : (s.acknowledge w).agenda = s.agenda := rfl
@[simp] theorem State.acknowledge_turn (s : State) (w : Word) : (s.acknowledge w).turn = s.turn := rfl
@[simp] theorem State.acknowledge_capin (s : State) (w : Word) : (s.acknowledge w).capin = s.capin := rfl
@[simp] theorem State.acknowledge_responses (s : State) (w : Word) : (s.acknowledge w).responses = s.responses := rfl
@[simp] theorem State.acknowledge_choices (s : State) (w : Word) : (s.acknowledge w).choices = s.choices := rfl
@[simp] theorem State.acknowledge_drawn (s : State) (w : Word) : (s.acknowledge w).drawn = s.drawn := rfl
@[simp] theorem State.acknowledge_rdata (s : State) (w : Word) : (s.acknowledge w).rdata = s.rdata := rfl

/-! ## The fields after a dropped command (R200) -/

@[simp] theorem State.overrun_ctrlIE (s : State) : s.overrun.ctrlIE = s.ctrlIE := rfl
@[simp] theorem State.overrun_status (s : State) : s.overrun.status = s.status.overrun := rfl
@[simp] theorem State.overrun_n (s : State) : s.overrun.n = s.n := rfl
@[simp] theorem State.overrun_alpha (s : State) : s.overrun.alpha = s.alpha := rfl
@[simp] theorem State.overrun_aAddr (s : State) : s.overrun.aAddr = s.aAddr := rfl
@[simp] theorem State.overrun_bAddr (s : State) : s.overrun.bAddr = s.bAddr := rfl
@[simp] theorem State.overrun_yAddr (s : State) : s.overrun.yAddr = s.yAddr := rfl
@[simp] theorem State.overrun_opa (s : State) : s.overrun.opa = s.opa := rfl
@[simp] theorem State.overrun_opb (s : State) : s.overrun.opb = s.opb := rfl
@[simp] theorem State.overrun_acc (s : State) : s.overrun.acc = s.acc := rfl
@[simp] theorem State.overrun_res (s : State) : s.overrun.res = s.res := rfl
@[simp] theorem State.overrun_maxdiff (s : State) : s.overrun.maxdiff = s.maxdiff := rfl
@[simp] theorem State.overrun_processed (s : State) : s.overrun.processed = s.processed := rfl
@[simp] theorem State.overrun_erraddr (s : State) : s.overrun.erraddr = s.erraddr := rfl
@[simp] theorem State.overrun_run (s : State) : s.overrun.run = s.run := rfl
@[simp] theorem State.overrun_target (s : State) : s.overrun.target = s.target := rfl
@[simp] theorem State.overrun_mem (s : State) : s.overrun.mem = s.mem := rfl
@[simp] theorem State.overrun_loans (s : State) : s.overrun.loans = s.loans := rfl
@[simp] theorem State.overrun_agenda (s : State) : s.overrun.agenda = s.agenda := rfl
@[simp] theorem State.overrun_turn (s : State) : s.overrun.turn = s.turn := rfl
@[simp] theorem State.overrun_capin (s : State) : s.overrun.capin = s.capin := rfl
@[simp] theorem State.overrun_responses (s : State) : s.overrun.responses = s.responses := rfl
@[simp] theorem State.overrun_choices (s : State) : s.overrun.choices = s.choices := rfl
@[simp] theorem State.overrun_drawn (s : State) : s.overrun.drawn = s.drawn := rfl
@[simp] theorem State.overrun_rdata (s : State) : s.overrun.rdata = s.rdata := rfl

/-! ## The fields after acceptance (R200) -/

@[simp] theorem State.accept_ctrlIE (s : State) (k : Snapshot) : (s.accept k).ctrlIE = s.ctrlIE := rfl
@[simp] theorem State.accept_status (s : State) (k : Snapshot) : (s.accept k).status = s.status.accepted := rfl
@[simp] theorem State.accept_n (s : State) (k : Snapshot) : (s.accept k).n = s.n := rfl
@[simp] theorem State.accept_alpha (s : State) (k : Snapshot) : (s.accept k).alpha = s.alpha := rfl
@[simp] theorem State.accept_aAddr (s : State) (k : Snapshot) : (s.accept k).aAddr = s.aAddr := rfl
@[simp] theorem State.accept_bAddr (s : State) (k : Snapshot) : (s.accept k).bAddr = s.bAddr := rfl
@[simp] theorem State.accept_yAddr (s : State) (k : Snapshot) : (s.accept k).yAddr = s.yAddr := rfl
@[simp] theorem State.accept_opa (s : State) (k : Snapshot) : (s.accept k).opa = s.opa := rfl
@[simp] theorem State.accept_opb (s : State) (k : Snapshot) : (s.accept k).opb = s.opb := rfl
@[simp] theorem State.accept_acc (s : State) (k : Snapshot) : (s.accept k).acc = s.acc := rfl
@[simp] theorem State.accept_res (s : State) (k : Snapshot) : (s.accept k).res = s.res := rfl
@[simp] theorem State.accept_maxdiff (s : State) (k : Snapshot) : (s.accept k).maxdiff = s.maxdiff := rfl
@[simp] theorem State.accept_processed (s : State) (k : Snapshot) :
    (s.accept k).processed = if k.op.isMemory then 0 else s.processed := rfl
@[simp] theorem State.accept_erraddr (s : State) (k : Snapshot) : (s.accept k).erraddr = s.erraddr := rfl
@[simp] theorem State.accept_run (s : State) (k : Snapshot) : (s.accept k).run = some (Run.start k) := rfl
@[simp] theorem State.accept_target (s : State) (k : Snapshot) : (s.accept k).target = s.target := rfl
@[simp] theorem State.accept_mem (s : State) (k : Snapshot) : (s.accept k).mem = s.mem := rfl
@[simp] theorem State.accept_loans (s : State) (k : Snapshot) :
    (s.accept k).loans = if k.op.isMemory then k :: s.loans else s.loans := rfl
@[simp] theorem State.accept_agenda (s : State) (k : Snapshot) : (s.accept k).agenda = s.agenda := rfl
@[simp] theorem State.accept_turn (s : State) (k : Snapshot) : (s.accept k).turn = s.turn := rfl
@[simp] theorem State.accept_capin (s : State) (k : Snapshot) : (s.accept k).capin = s.capin := rfl
@[simp] theorem State.accept_responses (s : State) (k : Snapshot) : (s.accept k).responses = s.responses := rfl
@[simp] theorem State.accept_choices (s : State) (k : Snapshot) : (s.accept k).choices = s.choices := rfl
@[simp] theorem State.accept_drawn (s : State) (k : Snapshot) : (s.accept k).drawn = s.drawn := rfl
@[simp] theorem State.accept_rdata (s : State) (k : Snapshot) : (s.accept k).rdata = s.rdata := rfl

/-! ## The fields after COMPARE's report is written (R180) -/

@[simp] theorem State.report_ctrlIE (s : State) (r : Run) : (s.report r).ctrlIE = s.ctrlIE := rfl
@[simp] theorem State.report_status (s : State) (r : Run) :
    (s.report r).status = { s.status with equal := r.eq } := rfl
@[simp] theorem State.report_n (s : State) (r : Run) : (s.report r).n = s.n := rfl
@[simp] theorem State.report_alpha (s : State) (r : Run) : (s.report r).alpha = s.alpha := rfl
@[simp] theorem State.report_aAddr (s : State) (r : Run) : (s.report r).aAddr = s.aAddr := rfl
@[simp] theorem State.report_bAddr (s : State) (r : Run) : (s.report r).bAddr = s.bAddr := rfl
@[simp] theorem State.report_yAddr (s : State) (r : Run) : (s.report r).yAddr = s.yAddr := rfl
@[simp] theorem State.report_opa (s : State) (r : Run) : (s.report r).opa = s.opa := rfl
@[simp] theorem State.report_opb (s : State) (r : Run) : (s.report r).opb = s.opb := rfl
@[simp] theorem State.report_acc (s : State) (r : Run) : (s.report r).acc = s.acc := rfl
@[simp] theorem State.report_res (s : State) (r : Run) : (s.report r).res = s.res := rfl
@[simp] theorem State.report_maxdiff (s : State) (r : Run) : (s.report r).maxdiff = BitVec.ofNat 32 r.md := rfl
@[simp] theorem State.report_processed (s : State) (r : Run) : (s.report r).processed = s.processed := rfl
@[simp] theorem State.report_erraddr (s : State) (r : Run) : (s.report r).erraddr = s.erraddr := rfl
@[simp] theorem State.report_run (s : State) (r : Run) : (s.report r).run = s.run := rfl
@[simp] theorem State.report_target (s : State) (r : Run) : (s.report r).target = s.target := rfl
@[simp] theorem State.report_mem (s : State) (r : Run) : (s.report r).mem = s.mem := rfl
@[simp] theorem State.report_loans (s : State) (r : Run) : (s.report r).loans = s.loans := rfl
@[simp] theorem State.report_agenda (s : State) (r : Run) : (s.report r).agenda = s.agenda := rfl
@[simp] theorem State.report_turn (s : State) (r : Run) : (s.report r).turn = s.turn := rfl
@[simp] theorem State.report_capin (s : State) (r : Run) : (s.report r).capin = s.capin := rfl
@[simp] theorem State.report_responses (s : State) (r : Run) : (s.report r).responses = s.responses := rfl
@[simp] theorem State.report_choices (s : State) (r : Run) : (s.report r).choices = s.choices := rfl
@[simp] theorem State.report_drawn (s : State) (r : Run) : (s.report r).drawn = s.drawn := rfl
@[simp] theorem State.report_rdata (s : State) (r : Run) : (s.report r).rdata = s.rdata := rfl

/-! ## The fields after a transaction without a response (R252) -/

@[simp] theorem State.hang_ctrlIE (s : State) (r : Run) : (s.hang r).ctrlIE = s.ctrlIE := rfl
@[simp] theorem State.hang_status (s : State) (r : Run) : (s.hang r).status = s.status := rfl
@[simp] theorem State.hang_n (s : State) (r : Run) : (s.hang r).n = s.n := rfl
@[simp] theorem State.hang_alpha (s : State) (r : Run) : (s.hang r).alpha = s.alpha := rfl
@[simp] theorem State.hang_aAddr (s : State) (r : Run) : (s.hang r).aAddr = s.aAddr := rfl
@[simp] theorem State.hang_bAddr (s : State) (r : Run) : (s.hang r).bAddr = s.bAddr := rfl
@[simp] theorem State.hang_yAddr (s : State) (r : Run) : (s.hang r).yAddr = s.yAddr := rfl
@[simp] theorem State.hang_opa (s : State) (r : Run) : (s.hang r).opa = s.opa := rfl
@[simp] theorem State.hang_opb (s : State) (r : Run) : (s.hang r).opb = s.opb := rfl
@[simp] theorem State.hang_acc (s : State) (r : Run) : (s.hang r).acc = s.acc := rfl
@[simp] theorem State.hang_res (s : State) (r : Run) : (s.hang r).res = s.res := rfl
@[simp] theorem State.hang_maxdiff (s : State) (r : Run) : (s.hang r).maxdiff = s.maxdiff := rfl
@[simp] theorem State.hang_processed (s : State) (r : Run) : (s.hang r).processed = s.processed := rfl
@[simp] theorem State.hang_erraddr (s : State) (r : Run) : (s.hang r).erraddr = s.erraddr := rfl
@[simp] theorem State.hang_run (s : State) (r : Run) : (s.hang r).run = some { r with hung := true } := rfl
@[simp] theorem State.hang_target (s : State) (r : Run) : (s.hang r).target = s.target := rfl
@[simp] theorem State.hang_mem (s : State) (r : Run) : (s.hang r).mem = s.mem := rfl
@[simp] theorem State.hang_loans (s : State) (r : Run) : (s.hang r).loans = s.loans := rfl
@[simp] theorem State.hang_agenda (s : State) (r : Run) : (s.hang r).agenda = s.agenda := rfl
@[simp] theorem State.hang_turn (s : State) (r : Run) : (s.hang r).turn = s.turn := rfl
@[simp] theorem State.hang_capin (s : State) (r : Run) : (s.hang r).capin = s.capin := rfl
@[simp] theorem State.hang_responses (s : State) (r : Run) : (s.hang r).responses = s.responses := rfl
@[simp] theorem State.hang_choices (s : State) (r : Run) : (s.hang r).choices = s.choices := rfl
@[simp] theorem State.hang_drawn (s : State) (r : Run) : (s.hang r).drawn = s.drawn := rfl
@[simp] theorem State.hang_rdata (s : State) (r : Run) : (s.hang r).rdata = s.rdata := rfl

/-! ## STATUS -/

@[simp] theorem Status.accepted_busy (f : Status) : f.accepted.busy = true := rfl
@[simp] theorem Status.accepted_done (f : Status) : f.accepted.done = false := rfl
@[simp] theorem Status.accepted_err (f : Status) : f.accepted.err = false := rfl
@[simp] theorem Status.accepted_ovr (f : Status) : f.accepted.ovr = f.ovr := rfl
@[simp] theorem Status.accepted_errcode (f : Status) : f.accepted.errcode = 0 := rfl
@[simp] theorem Status.accepted_equal (f : Status) : f.accepted.equal = f.equal := rfl

@[simp] theorem Status.completed_busy (f : Status) : f.completed.busy = false := rfl
@[simp] theorem Status.completed_done (f : Status) : f.completed.done = true := rfl
@[simp] theorem Status.completed_err (f : Status) : f.completed.err = f.err := rfl
@[simp] theorem Status.completed_ovr (f : Status) : f.completed.ovr = f.ovr := rfl
@[simp] theorem Status.completed_errcode (f : Status) : f.completed.errcode = f.errcode := rfl
@[simp] theorem Status.completed_equal (f : Status) : f.completed.equal = f.equal := rfl

@[simp] theorem Status.failed_busy (f : Status) (code : ErrCode) : (f.failed code).busy = false := rfl
@[simp] theorem Status.failed_done (f : Status) (code : ErrCode) : (f.failed code).done = true := rfl
@[simp] theorem Status.failed_err (f : Status) (code : ErrCode) : (f.failed code).err = true := rfl
@[simp] theorem Status.failed_ovr (f : Status) (code : ErrCode) : (f.failed code).ovr = f.ovr := rfl
@[simp] theorem Status.failed_errcode (f : Status) (code : ErrCode) : (f.failed code).errcode = code.code := rfl
@[simp] theorem Status.failed_equal (f : Status) (code : ErrCode) : (f.failed code).equal = f.equal := rfl

@[simp] theorem Status.overrun_busy (f : Status) : f.overrun.busy = f.busy := rfl
@[simp] theorem Status.overrun_done (f : Status) : f.overrun.done = f.done := rfl
@[simp] theorem Status.overrun_err (f : Status) : f.overrun.err = f.err := rfl
@[simp] theorem Status.overrun_ovr (f : Status) : f.overrun.ovr = true := rfl
@[simp] theorem Status.overrun_errcode (f : Status) : f.overrun.errcode = f.errcode := rfl
@[simp] theorem Status.overrun_equal (f : Status) : f.overrun.equal = f.equal := rfl

@[simp] theorem Status.acknowledge_busy (f : Status) (w : Word) : (f.acknowledge w).busy = f.busy := rfl
@[simp] theorem Status.acknowledge_done (f : Status) (w : Word) : (f.acknowledge w).done = (f.done && !w.getLsbD 1) := rfl
@[simp] theorem Status.acknowledge_err (f : Status) (w : Word) : (f.acknowledge w).err = (f.err && !w.getLsbD 2) := rfl
@[simp] theorem Status.acknowledge_ovr (f : Status) (w : Word) : (f.acknowledge w).ovr = (f.ovr && !w.getLsbD 3) := rfl
@[simp] theorem Status.acknowledge_errcode (f : Status) (w : Word) : (f.acknowledge w).errcode = if w.getLsbD 2 then 0 else f.errcode := rfl
@[simp] theorem Status.acknowledge_equal (f : Status) (w : Word) : (f.acknowledge w).equal = f.equal := rfl

/-! ## A run just started and a strip just opened -/

@[simp] theorem Run.start_snap (k : Snapshot) : (Run.start k).snap = k := rfl
@[simp] theorem Run.start_lanes (k : Snapshot) : (Run.start k).lanes = [] := rfl
@[simp] theorem Run.start_eq (k : Snapshot) : (Run.start k).eq = true := rfl
@[simp] theorem Run.start_md (k : Snapshot) : (Run.start k).md = 0 := rfl
@[simp] theorem Run.start_seen (k : Snapshot) : (Run.start k).seen = 0 := rfl
@[simp] theorem Run.start_accRaced (k : Snapshot) : (Run.start k).accRaced = false := rfl
@[simp] theorem Run.start_hung (k : Snapshot) : (Run.start k).hung = false := rfl

@[simp] theorem Run.openStrip_snap (r : Run) (c : Nat) : (r.openStrip c).snap = r.snap := rfl
@[simp] theorem Run.openStrip_lanes (r : Run) (c : Nat) : (r.openStrip c).lanes = List.replicate c Lane.fresh := rfl
@[simp] theorem Run.openStrip_eq (r : Run) (c : Nat) : (r.openStrip c).eq = r.eq := rfl
@[simp] theorem Run.openStrip_md (r : Run) (c : Nat) : (r.openStrip c).md = r.md := rfl
@[simp] theorem Run.openStrip_seen (r : Run) (c : Nat) : (r.openStrip c).seen = r.seen := rfl
@[simp] theorem Run.openStrip_accRaced (r : Run) (c : Nat) : (r.openStrip c).accRaced = r.accRaced := rfl
@[simp] theorem Run.openStrip_hung (r : Run) (c : Nat) : (r.openStrip c).hung = r.hung := rfl

@[simp] theorem Lane.fresh_a : Lane.fresh.a = none := rfl
@[simp] theorem Lane.fresh_b : Lane.fresh.b = none := rfl
@[simp] theorem Lane.fresh_stored : Lane.fresh.stored = false := rfl
@[simp] theorem Lane.fresh_before : Lane.fresh.before = none := rfl

end Sys2Proof.Machine
end

