-- ==== Sys2Proof/Laws/Strip.lean ====
section
/-! SUPPORT. What the shared operations of Machine/Ops.lean can do, said once for each. -/

namespace Sys2Proof.Machine

/-! ## Feeds -/

/-- A feed that always gives one value gives it now. -/
theorem Feed.Always_now {α : Type} (f : Feed α) (v free : α) (h : ∀ x ∈ f.listed, x = v) (hr : f.rest = some v) :
    f.now free = v := by
  unfold Feed.now
  split
  · next x xs hx => exact h x (by simp [hx])
  · simp [hr]

/-! ## The transactions enabled in a strip -/

/-- The state of the lane a transaction may be made for (R61, R68): a read that was not made, or a store that follows
both reads and was not made. -/
def Xact.fits (writes : Bool) (l : Lane) : Xact → Prop
  | .readA _ => l.a = none
  | .readB _ => l.b = none
  | .store _ => writes = true ∧ l.a.isSome = true ∧ l.b.isSome = true ∧ l.stored = false

/-- Which transactions one lane enables. -/
theorem Lane.mem_enabled (writes : Bool) (j : Nat) (l : Lane) (x : Xact) :
    x ∈ l.enabled writes j ↔ x.lane = j ∧ x.fits writes l := by
  obtain ⟨a, b, st, old⟩ := l
  cases x <;> cases a <;> cases b <;> cases st <;> cases writes <;>
    simp [Lane.enabled, Xact.lane, Xact.fits, eq_comm]

/-- Which transactions the lanes from j on enable. -/
theorem mem_enabledFrom (writes : Bool) (x : Xact) (ls : List Lane) (j : Nat) :
    x ∈ enabledFrom writes j ls ↔ ∃ i l, ls[i]? = some l ∧ x.lane = j + i ∧ x.fits writes l := by
  induction ls generalizing j with
  | nil => simp [enabledFrom]
  | cons l ls ih =>
    simp only [enabledFrom, List.mem_append, Lane.mem_enabled, ih]
    constructor
    · rintro (⟨h, hf⟩ | ⟨i, l', hl, h, hf⟩)
      · exact ⟨0, l, by simp, by simpa using h, hf⟩
      · exact ⟨i + 1, l', by simpa using hl, by omega, hf⟩
    · rintro ⟨i, l', hl, h, hf⟩
      cases i with
      | zero =>
        have : l = l' := by simpa using hl
        subst this
        exact .inl ⟨by simpa using h, hf⟩
      | succ i => exact .inr ⟨i, l', by simpa using hl, by omega, hf⟩

/-- A strip in which some lane is not finished enables a transaction, and no draw picks nothing. -/
theorem enabledFrom_ne_nil (writes : Bool) (ls : List Lane) (j : Nat)
    (h : ls.all (Lane.finished writes) = false) : enabledFrom writes j ls ≠ [] := by
  induction ls generalizing j with
  | nil => simp at h
  | cons l ls ih =>
    by_cases hl : l.finished writes = true
    · have : ls.all (Lane.finished writes) = false := by simpa [hl] using h
      simp [enabledFrom, ih (j + 1) this]
    · obtain ⟨a, b, st, old⟩ := l
      cases a <;> cases b <;> cases st <;> cases writes <;> simp_all [enabledFrom, Lane.enabled, Lane.finished]

/-- A draw picks one of the enabled transactions. -/
theorem pick_mem (xs : List Xact) (d : Nat) (x : Xact) (h : pick xs d = some x) : x ∈ xs :=
  List.mem_of_getElem? h

/-- From a nonempty list a draw picks something. -/
theorem pick_isSome (xs : List Xact) (d : Nat) (h : xs ≠ []) : ∃ x, pick xs d = some x := by
  have : d % xs.length < xs.length := Nat.mod_lt _ (List.length_pos_of_ne_nil h)
  exact ⟨xs[d % xs.length], by simp [pick, this]⟩

/-- R61, R68: what a draw picks is a transaction that the lane it names allows. -/
theorem pick_fits (writes : Bool) (ls : List Lane) (d : Nat) (x : Xact)
    (h : pick (enabledFrom writes 0 ls) d = some x) :
    ∃ l, ls[x.lane]? = some l ∧ x.fits writes l := by
  obtain ⟨i, l, hl, hx, hf⟩ := (mem_enabledFrom writes x ls 0).mp (pick_mem _ _ _ h)
  have hi : x.lane = i := by omega
  exact ⟨l, by rw [hi]; exact hl, hf⟩

/-- An unfinished strip always lets a transaction be made. -/
theorem pick_of_unfinished (writes : Bool) (ls : List Lane) (d : Nat)
    (h : ls.all (Lane.finished writes) = false) :
    ∃ x, pick (enabledFrom writes 0 ls) d = some x :=
  pick_isSome _ _ (enabledFrom_ne_nil writes ls 0 h)

/-! ## One transaction -/

/-- The lanes after a transaction. -/
def Run.lanesAfter (r : Run) (x : Xact) (v : Sample) : List Lane :=
  r.lanes.modify x.lane (Lane.after x v)

/-- The memory after a transaction that succeeds. -/
def State.memAfter (s : State) (r : Run) (x : Xact) : Memory :=
  match x with
  | .readA _ => s.mem
  | .readB _ => s.mem
  | .store j =>
    match r.lanes[j]?.bind (Lane.result r.snap.alpha) with
    | some v => Memory.writeSample s.mem (x.address r.snap s.processed.toNat) v
    | none => s.mem

/-- A lane whose samples were both read has a result. -/
theorem Lane.result_isSome (alpha : Sample) (l : Lane) (ha : l.a.isSome = true) (hb : l.b.isSome = true) :
    ∃ a b, l.a = some a ∧ l.b = some b ∧ l.result alpha = some (axpySample a alpha b) := by
  obtain ⟨a, ha⟩ := Option.isSome_iff_exists.mp ha
  obtain ⟨b, hb⟩ := Option.isSome_iff_exists.mp hb
  exact ⟨a, b, ha, hb, by simp [Lane.result, ha, hb]⟩

/-- What a transaction that fits its lane does when it succeeds: it moves one sample, and settles the strip. -/
theorem State.perform_of_fits (s : State) (r : Run) (x : Xact) (l : Lane) (hl : r.lanes[x.lane]? = some l)
    (hf : x.fits r.snap.op.writesY l) :
    s.perform r x = { s with mem := s.memAfter r x }.settleStrip
      { r with lanes := r.lanesAfter x (Memory.readSample s.mem (x.address r.snap s.processed.toNat)) } := by
  cases x with
  | readA j => rfl
  | readB j => rfl
  | store j =>
    obtain ⟨-, ha, hb, -⟩ := hf
    obtain ⟨a, b, -, -, hr⟩ := Lane.result_isSome r.snap.alpha l ha hb
    have hj : r.lanes[j]? = some l := hl
    simp [State.perform, State.memAfter, Run.lanesAfter, Xact.lane, hj, hr]

/-- What closing or keeping a strip leaves of each field that matters. -/
theorem State.settleStrip_cases (s : State) (r : Run) :
    (r.lanes.all (Lane.finished r.snap.op.writesY) = true ∧ s.settleStrip r = s.closeStrip r) ∨
    (r.lanes.all (Lane.finished r.snap.op.writesY) = false ∧ s.settleStrip r = { s with run := some r }) := by
  unfold State.settleStrip
  split <;> simp_all

/-- Every outcome of one transaction of the open strip. -/
theorem State.transact_cases (s : State) (r : Run) (o : Result) (h : s.transact r = o) :
    (pick (enabledFrom r.snap.op.writesY 0 r.lanes) s.choice = none ∧ o = .next (s.afterChoice.settleStrip r)) ∨
    ∃ x l, pick (enabledFrom r.snap.op.writesY 0 r.lanes) s.choice = some x ∧ r.lanes[x.lane]? = some l ∧
      x.fits r.snap.op.writesY l ∧
      ((Memory.holds (x.address r.snap s.processed.toNat) = false ∧ o = .fault .noSuchAddress) ∨
       (s.target.coherent = false ∧ o = .refused .notCoherent) ∨
       (ordinary s.target (x.address r.snap s.processed.toNat) = false ∧ o = .refused .notOrdinaryMemory) ∨
       (Memory.holds (x.address r.snap s.processed.toNat) = true ∧ s.target.coherent = true ∧
        ordinary s.target (x.address r.snap s.processed.toNat) = true ∧ o = .next (s.afterChoice.respond r x))) := by
  unfold State.transact at h
  split at h
  · next hp => exact .inl ⟨hp, h.symm⟩
  · next x hp =>
    obtain ⟨l, hl, hf⟩ := pick_fits _ _ _ _ hp
    refine .inr ⟨x, l, hp, hl, hf, ?_⟩
    split at h
    · exact .inl ⟨by simp_all, h.symm⟩
    · split at h
      · exact .inr (.inl ⟨by simp_all, h.symm⟩)
      · split at h
        · exact .inr (.inr (.inl ⟨by simp_all, h.symm⟩))
        · exact .inr (.inr (.inr ⟨by simp_all, by simp_all, by simp_all, h.symm⟩))

/-- Every outcome of a step of a memory command. -/
theorem State.stripStep_cases (s : State) (r : Run) (vector : Bool) (finish : Run → State) :
    (r.lanes ≠ [] ∧ s.stripStep r vector finish = s.transact r) ∨
    (r.lanes = [] ∧ s.processed.toNat < r.snap.n.toNat ∧ vector = true ∧
      s.stripStep r vector finish = s.takeChunk r) ∨
    (r.lanes = [] ∧ s.processed.toNat < r.snap.n.toNat ∧ vector = false ∧
      s.stripStep r vector finish = s.transact (r.openStrip 1)) ∨
    (r.lanes = [] ∧ r.snap.n.toNat ≤ s.processed.toNat ∧ s.stripStep r vector finish = .next (finish r)) := by
  unfold State.stripStep
  cases hl : r.lanes with
  | cons l ls => simp
  | nil =>
    by_cases hp : s.processed.toNat < r.snap.n.toNat
    · cases vector <;> simp [hp]
    · simp [hp]; omega

/-- Every outcome of a CAPIN answer (R151, R161). -/
theorem State.takeChunk_cases (s : State) (r : Run) :
    (1 ≤ s.chunkAnswer ∧ s.chunkAnswer ≤ s.target.vlmax ∧
      s.takeChunk r = .next { s.afterChunk with
        run := some (r.openStrip (min s.chunkAnswer (r.snap.n.toNat - s.processed.toNat))) }) ∨
    (¬ (1 ≤ s.chunkAnswer ∧ s.chunkAnswer ≤ s.target.vlmax) ∧ s.takeChunk r = .refused .capinContract) := by
  unfold State.takeChunk
  split
  · next h => exact .inl ⟨h.1, h.2, rfl⟩
  · next h => exact .inr ⟨h, rfl⟩

/-- Every outcome of the unit's own step of a command. -/
theorem State.unitStep_cases (s : State) (op : Instr) (body : Run → Result) :
    (∃ r, s.run = some r ∧ r.snap.op = op ∧ r.hung = false ∧ s.unitStep op body = body r) ∨
    s.unitStep op body = .next s := by
  unfold State.unitStep
  cases hr : s.run with
  | none => exact .inr rfl
  | some r =>
    by_cases h : r.snap.op = op ∧ r.hung = false
    · exact .inl ⟨r, rfl, h.1, h.2, by simp [h]⟩
    · exact .inr (by simp [h])

/-- Every outcome of an issue (R200, R65). -/
theorem State.issue_cases (s : State) (op : Instr) :
    (s.status.busy = true ∧ s.issue op = .next s.overrun) ∨
    (s.status.busy = false ∧ ∃ code addr, (capture op s).issueError = some (code, addr) ∧
      s.issue op = .next (s.raiseError code (some addr))) ∨
    (s.status.busy = false ∧ (capture op s).issueError = none ∧ (capture op s).inOrdinaryMemory s.target = true ∧
      s.issue op = .next (s.accept (capture op s))) ∨
    (s.status.busy = false ∧ (capture op s).issueError = none ∧ (capture op s).inOrdinaryMemory s.target = false ∧
      s.issue op = .refused .notOrdinaryMemory) := by
  unfold State.issue
  cases hb : s.status.busy with
  | true => exact .inl ⟨rfl, by simp⟩
  | false =>
    cases he : (capture op s).issueError with
    | some e => exact .inr (.inl ⟨rfl, e.1, e.2, rfl, by simp⟩)
    | none =>
      cases ho : (capture op s).inOrdinaryMemory s.target with
      | true => exact .inr (.inr (.inl ⟨rfl, rfl, rfl, by simp⟩))
      | false => exact .inr (.inr (.inr ⟨rfl, rfl, rfl, by simp⟩))

/-- R65: a command without buffers, or with empty ones, is in ordinary memory on every platform. -/
theorem Snapshot.inOrdinaryMemory_of_empty (k : Snapshot) (t : Target) (h : k.op.isMemory = false ∨ k.n = 0) :
    k.inOrdinaryMemory t = true := by
  rcases h with h | h <;> simp [Snapshot.inOrdinaryMemory, h, rangesMeet, Snapshot.bytes]

/-! ## What an abandoned strip leaves -/

/-- What abandoning one lane can do: store its result, put back what was there, or leave the memory. -/
theorem Lane.abandon_cases (l : Lane) (m : Memory) (e : Nat) (v : Sample) (new : Bool) :
    (new = true ∧ l.abandon m e v new = Memory.writeSample m e v) ∨
    (new = false ∧ ∃ old, l.before = some old ∧ l.abandon m e v new = Memory.writeSample m e old) ∨
    (new = false ∧ l.before = none ∧ l.abandon m e v new = m) := by
  cases new <;> cases h : l.before <;> simp [Lane.abandon, h]

/-- Abandoning a lane keeps the memory's form. -/
theorem Lane.abandon_wf (l : Lane) (m : Memory) (h : Memory.wf m) (e : Nat) (v : Sample) (new : Bool) :
    Memory.wf (l.abandon m e v new) := by
  rcases l.abandon_cases m e v new with ⟨-, hc⟩ | ⟨-, old, -, hc⟩ | ⟨-, -, hc⟩ <;> rw [hc]
  · exact Memory.writeSample_wf _ h _ _
  · exact Memory.writeSample_wf _ h _ _
  · exact h

/-- Everything a spill changes: the memory and the draws, and the memory keeps its form. -/
theorem spillFrom_frame (k : Snapshot) (p : Nat) (ls : List Lane) (j : Nat) (s : State) :
    ∃ m c d, spillFrom k p j ls s = { s with mem := m, choices := c, drawn := d } ∧
      (Memory.wf s.mem → Memory.wf m) := by
  induction ls generalizing j s with
  | nil => exact ⟨s.mem, s.choices, s.drawn, rfl, id⟩
  | cons l ls ih =>
    simp only [spillFrom]
    split
    · obtain ⟨m, c, d, h, hw⟩ := ih (j + 1) { s.afterChoice with
        mem := l.abandon s.mem (elem k.yAddr (p + j)) _ (decide (s.choice % 2 = 1)) }
      exact ⟨m, c, d, h, fun hs => hw (Lane.abandon_wf l s.mem hs _ _ _)⟩
    · exact ih (j + 1) s

/-- Everything a spill changes. -/
theorem State.spill_frame (s : State) (r : Run) :
    ∃ m c d, s.spill r = { s with mem := m, choices := c, drawn := d } ∧ (Memory.wf s.mem → Memory.wf m) ∧
      (r.snap.op.writesY = false → m = s.mem) := by
  unfold State.spill
  split
  · next h =>
    obtain ⟨m, c, d, he, hw⟩ := spillFrom_frame r.snap s.processed.toNat r.lanes 0 s
    exact ⟨m, c, d, he, hw, by simp [h]⟩
  · exact ⟨s.mem, s.choices, s.drawn, rfl, id, fun _ => rfl⟩

end Sys2Proof.Machine
end

