-- ==== Sys2Proof/Laws/Exec.lean ====
section
/-! SUPPORT. What the meaning of each command answers, in the host's turn and in the unit's. -/

namespace Sys2Proof.Machine

/-- R200: in the host's turn a command other than NOP is issued. -/
theorem exec_host (i : Instr) (hi : i ≠ .nop) (s : State) (ht : s.turn = .host) : exec i s = s.issue i := by
  cases i <;> first | exact absurd rfl hi | simp [exec, execMac, execClamp, execAxpyRef, execAxpyVec, execCompare, ht]

/-- The unit's own step of MAC (R121). -/
theorem exec_mac_unit (s : State) (r : Run) (ht : s.turn = .unit) (hr : s.run = some r) (ho : r.snap.op = .mac)
    (hh : r.hung = false) : exec .mac s = .next (s.finishMac r) := by
  simp [exec, execMac, ht, State.unitStep, hr, ho, hh]

/-- The unit's own step of CLAMP (R122). -/
theorem exec_clamp_unit (s : State) (r : Run) (ht : s.turn = .unit) (hr : s.run = some r) (ho : r.snap.op = .clamp)
    (hh : r.hung = false) : exec .clamp s = .next (s.finishClamp r) := by
  simp [exec, execClamp, ht, State.unitStep, hr, ho, hh]

/-- The unit's own step of AXPY_REF (R130). -/
theorem exec_axpyRef_unit (s : State) (r : Run) (ht : s.turn = .unit) (hr : s.run = some r)
    (ho : r.snap.op = .axpyRef) (hh : r.hung = false) :
    exec .axpyRef s = s.stripStep r false fun _ => s.complete := by
  simp [exec, execAxpyRef, ht, State.unitStep, hr, ho, hh]

/-- The unit's own step of AXPY_VEC (R150). -/
theorem exec_axpyVec_unit (s : State) (r : Run) (ht : s.turn = .unit) (hr : s.run = some r)
    (ho : r.snap.op = .axpyVec) (hh : r.hung = false) :
    exec .axpyVec s = s.stripStep r s.target.hasVector fun _ => s.complete := by
  simp [exec, execAxpyVec, ht, State.unitStep, hr, ho, hh]

/-- The unit's own step of COMPARE (R180). -/
theorem exec_compare_unit (s : State) (r : Run) (ht : s.turn = .unit) (hr : s.run = some r)
    (ho : r.snap.op = .compare) (hh : r.hung = false) :
    exec .compare s = s.stripStep r s.target.hasVector fun r => (s.report r).complete := by
  simp [exec, execCompare, ht, State.unitStep, hr, ho, hh]

/-- With the controller IDLE no own step of a command is enabled (R225). -/
theorem exec_idle (i : Instr) (s : State) (ht : s.turn = .unit) (hr : s.run = none) : exec i s = .next s := by
  cases i <;> simp [exec, execNop, execMac, execClamp, execAxpyRef, execAxpyVec, execCompare, ht, State.unitStep, hr]

end Sys2Proof.Machine
end

