-- ==== Sys2Proof/Laws/PerInstr.lean ====
section
/-! SUPPORT. The family of lemmas with one lemma per command: its word is legal and is the word of its row of the
opcode map. -/

namespace Sys2Proof.Laws.EncodingLegal

/-- A command is well formed, its word is its opcode with nothing above it (R90), and that word is the pattern of its
row of the opcode map (R92). -/
def Statement (i : Instr) : Prop :=
  i.wf = true ∧ (encode i).toNat = i.opcode.toNat ∧ ∃ row ∈ opcodeTable, row.op = i ∧ row.pattern = encode i

theorem nop : Statement .nop := ⟨by decide, by decide, opcodeTable[0], by decide, rfl, by decide⟩
theorem mac : Statement .mac := ⟨by decide, by decide, opcodeTable[1], by decide, rfl, by decide⟩
theorem clamp : Statement .clamp := ⟨by decide, by decide, opcodeTable[2], by decide, rfl, by decide⟩
theorem axpyRef : Statement .axpyRef := ⟨by decide, by decide, opcodeTable[3], by decide, rfl, by decide⟩
theorem axpyVec : Statement .axpyVec := ⟨by decide, by decide, opcodeTable[4], by decide, rfl, by decide⟩
theorem compare : Statement .compare := ⟨by decide, by decide, opcodeTable[5], by decide, rfl, by decide⟩

end Sys2Proof.Laws.EncodingLegal
end

