-- ==== Sys2Proof/Laws/Step.lean ====
section
/-! SUPPORT. What a step does with each kind of event, so that later proofs need not unfold `step`. -/

namespace Sys2Proof.Machine

/-- R23, R27: a 32-bit host write at offset o. -/
theorem step_writesNext (s : State) (o : Nat) (w : Word) (rest : List Event) (h : s.writesNext o w rest) :
    step s =
      match registerAt o with
      | none => .refused .portAccess
      | some reg =>
        if reg = .cmd then { s with agenda := rest }.issueWord w
        else .next ({ s with agenda := rest }.writeReg reg w) := by
  obtain ⟨p, hp, ha⟩ := h
  cases hr : registerAt o <;> simp [step, ha, State.handle, State.hostWrite, portRegister, hp, hr]

/-- R23: a 32-bit host read at offset o. -/
theorem step_readsNext (s : State) (o : Nat) (rest : List Event) (h : s.readsNext o rest) :
    step s =
      match registerAt o with
      | none => .refused .portAccess
      | some reg => .next ({ s with agenda := rest }.readReg reg) := by
  obtain ⟨p, hp, ha⟩ := h
  cases hr : registerAt o <;> simp [step, ha, State.handle, State.hostRead, portRegister, hp, hr]

/-- R200: a word written to CMD that decodes to a command other than NOP is issued. -/
theorem State.issueWord_command (s : State) (w : Word) (i : Instr) (h : decode w = .command i) (hi : i ≠ .nop) :
    s.issueWord w = { s with turn := .host }.issue i := by
  simp only [State.issueWord, h]
  exact exec_host i hi _ rfl

/-- R200: NOP does nothing. -/
theorem State.issueWord_nop (s : State) (w : Word) (h : decode w = .command .nop) :
    s.issueWord w = .next { s with turn := .host } := by
  simp only [State.issueWord, h]
  rfl

/-- R225, R251, R252: a step with no event to come. -/
theorem step_quiet (s : State) (h : s.agenda = []) :
    (s.run = none ∧ step s = .next s) ∨
    (∃ r, s.run = some r ∧ r.hung = true ∧ step s = .fault .stuck) ∨
    (∃ r, s.run = some r ∧ r.hung = false ∧ step s = exec r.snap.op { s with turn := .unit }) := by
  cases hr : s.run with
  | none => exact .inl ⟨rfl, by simp [step, h, State.quiet, hr]⟩
  | some r =>
    cases hh : r.hung with
    | true => exact .inr (.inl ⟨r, rfl, hh, by simp [step, h, State.quiet, hr, hh]⟩)
    | false => exact .inr (.inr ⟨r, rfl, hh, by simp [step, h, State.quiet, State.unitTurn, hr, hh]⟩)

/-- A step that has an event handles it. -/
theorem step_event (s : State) (e : Event) (rest : List Event) (h : s.agenda = e :: rest) :
    step s = { s with agenda := rest }.handle e := by
  simp [step, h]

end Sys2Proof.Machine
end

