-- ==== Sys2Proof/Tests/Slice0.lean ====
section
/-! SUPPORT. The model's own tests: ill-formed terms that the checks refuse, command words written out from the opcode
map, one-step tests with the values of spec/95_test_vectors.md, and a witness of the hypotheses of every statement. -/

namespace Sys2Proof.Tests

open Sys2Proof.Machine

/-! ## Ill-formed terms -/

/-- A reserved bit is set (R90). -/
theorem test_wf_refuses_reserved_bits :
    Cmdw.reservedZero { rsv := 1, op := 1 } = false ∧ Cmdw.wf { rsv := 1, op := 1 } = false := by decide

/-- The first and the last reserved opcode (R92). -/
theorem test_wf_refuses_reserved_opcodes :
    Cmdw.opcodeAssigned { rsv := 0, op := 0x6 } = false ∧ Cmdw.wf { rsv := 0, op := 0xF } = false := by decide

/-- VLMAX of 0 and of 2^24 (R8). -/
theorem test_wf_refuses_vlmax_out_of_range :
    Target.vlmaxInRange { hasVector := true, vlmax := 0, base := 0, coherent := true, devices := [] } = false ∧
    Target.vlmaxInRange { hasVector := true, vlmax := 16777216, base := 0, coherent := true, devices := [] } = false := by
  decide

/-- VLMAX above 1 without the vector capability (R8). -/
theorem test_wf_refuses_wide_scalar_target :
    Target.vlmaxOneWithoutVector { hasVector := false, vlmax := 4, base := 0, coherent := true, devices := [] } = false :=
  by decide

/-- A window that is not at a multiple of 0x100 (R8). -/
theorem test_wf_refuses_misaligned_base :
    Target.baseAligned { hasVector := false, vlmax := 1, base := 0x80, coherent := true, devices := [] } = false := by
  decide

/-- Memories out of canonical form: not rising, a byte equal to the fill, an address past the end. -/
theorem test_memory_wf_refuses :
    ¬ Memory.wf [(2, 5), (1, 5)] ∧ ¬ Memory.wf [(1, 5), (1, 6)] ∧ ¬ Memory.wf [(1, 0)] ∧
    ¬ Memory.wf [(4294967296, 5)] := by decide

/-! ## Words written out from the opcode map (R92: OP in bits 3:0 below 28 zero bits) -/

theorem test_decode_nop : decode 0b00000000000000000000000000000000 = .command .nop := by decide
theorem test_decode_mac : decode 0b00000000000000000000000000000001 = .command .mac := by decide
theorem test_decode_clamp : decode 0b00000000000000000000000000000010 = .command .clamp := by decide
theorem test_decode_axpyRef : decode 0b00000000000000000000000000000011 = .command .axpyRef := by decide
theorem test_decode_axpyVec : decode 0b00000000000000000000000000000100 = .command .axpyVec := by decide
theorem test_decode_compare : decode 0b00000000000000000000000000000101 = .command .compare := by decide

/-- spec/95_test_vectors.md ER1 to ER5b. -/
theorem test_decode_illegal :
    [0x6, 0xF, 0x10, 0x80000001, 0xFFFFFFFF, 0x13].map (decodeTableWord 32) =
      [none, none, none, none, none, none] := by decide

/-- A table word runs as the first command after reset. -/
theorem test_fetch_runs_first : step (State.reset.withFetchWord 32 1) = exec .mac State.reset := rfl

/-! ## Small states -/

/-- The target of spec/95_test_vectors.md: HAS_VECTOR = 1, VLMAX = 4; with a device just past b's only sample below. -/
def vec : Target := { hasVector := true, vlmax := 4, base := 0x4000, coherent := true, devices := [(0x22, 1)] }

/-- The same target without the vector capability. -/
def scalar : Target := { vec with hasVector := false, vlmax := 1 }

/-- A target of which the second byte of b's only sample is a device. -/
def holed : Target := { vec with devices := [(0x21, 1)] }

/-- A reset unit whose surroundings answer: every draw 0, every response ok, every CAPIN answer 1. -/
def idleOn (t : Target) : State :=
  { State.resetOn t with
    choices := { listed := [], rest := some 0 }
    responses := { listed := [], rest := some .ok }
    capin := { listed := [], rest := some 1 } }

def idle : State := idleOn vec

/-- One element: a = 100 at 0x10, b = 50 at 0x20, y at 0x30, alpha = 3 (scenario A's first element). -/
def readyOn (t : Target) : State :=
  { idleOn t with
    n := 1, alpha := 3, aAddr := 0x10, bAddr := 0x20, yAddr := 0x30, opa := 100, opb := 50
    mem := [(0x10, 100), (0x20, 50)] }

def ready : State := readyOn vec

/-- The next state of an outcome; `d` where there is none. -/
def orElse (d : State) : Result → State
  | .next t => t
  | _ => d

/-- `ready` after the acceptance of a command, in the unit's turn. -/
def acceptedOn (t : Target) (op : Instr) : State :=
  { orElse idle (exec op { readyOn t with turn := .host }) with turn := .unit }

def accepted (op : Instr) : State := acceptedOn vec op

/-- `accepted` after k own steps. -/
def ranOn (t : Target) (op : Instr) (k : Nat) : State := orElse idle (execTimes op k (acceptedOn t op))

def ran (op : Instr) (k : Nat) : State := ranOn vec op k

/-- The run of a busy state. -/
def theRun (s : State) : Run := s.run.getD (Run.start (capture .nop s))

/-! ## One-step tests -/

/-- spec/95_test_vectors.md M1: ALPHA = 3, OPA = 100, OPB = 50. -/
theorem test_mac : (ran .mac 1).acc = 0x000000FA ∧ (ran .mac 1).res = 0x00FA ∧ (ran .mac 1).status.word = 0x002 := by
  decide

/-- M5, M6 and M12 on the MAC datapath. -/
theorem test_mac_saturates :
    u32 (mac 0x8000 0x7FFF 0x8000) = 0xC0000000 ∧ axpySample 0x8000 0x7FFF 0x8000 = 0x8000 ∧
    u32 (mac 0x7FFF 0x8000 0x8000) = 0x40007FFF ∧ axpySample 0x7FFF 0x8000 0x8000 = 0x7FFF ∧
    axpySample 1 0xFFFF 0x8000 = 0x7FFF := by decide

/-- CL3, CL5, CL8 and CL12. -/
theorem test_clamp :
    [0x00008000, 0xFFFF7FFF, 0x00010000, 0xFFFFFFFF].map (fun p : Word => u16 (clamp (s32 p))) =
      [0x7FFF, 0x8000, 0x7FFF, 0xFFFF] := by decide

/-- CL1: ACC = 0. -/
theorem test_clamp_command : (ran .clamp 1).res = 0 ∧ (ran .clamp 1).status.word = 0x002 := by decide

/-- N1 and N3: NOP leaves STATUS, idle and busy. -/
theorem test_nop : orElse idle (exec .nop idle) = idle ∧ (ran .axpyVec 0).status.ovr = false := ⟨rfl, by decide⟩

/-- V1's first element: two reads and a store. -/
theorem test_axpyRef :
    Memory.readSample (ran .axpyRef 3).mem 0x30 = 250 ∧ (ran .axpyRef 4).status.word = 0x002 := by decide

/-- The CAPIN answer opens the strip; the third transaction stores y. -/
theorem test_axpyVec :
    (theRun (ran .axpyVec 1)).lanes.length = 1 ∧ Memory.readSample (ran .axpyVec 4).mem 0x30 = 250 := by decide

/-- CP2's first kind of report: 100 against 50. -/
theorem test_compare : (ran .compare 4).maxdiff = 50 ∧ (ran .compare 4).status.word = 0x002 := by decide

/-- IR5: a command written while BUSY is dropped and sets OVR. -/
theorem test_overrun : (orElse idle (exec .mac { accepted .axpyVec with turn := .host })).status.word = 0x009 := by
  decide

/-- ER18: y overlaps a one element up; ER10: A before B before Y. -/
theorem test_issue_errors :
    (capture .axpyRef { ready with n := 2, aAddr := 0x1000, bAddr := 0x2000, yAddr := 0x1002 }).issueError =
      some (.overlap, 0x1002) ∧
    (capture .axpyRef { ready with n := 4, aAddr := 0x1001, bAddr := 0x2001, yAddr := 0x3001 }).issueError =
      some (.align, 0x1001) := by decide

/-! ## Witnesses: states and operands that meet the hypotheses of each statement -/

/-- `s` with one event to come. -/
def next (s : State) (e : Event) : State := { s with agenda := [e] }

/-- `s` with a CMD write of w to come. -/
def atCmd (s : State) (w : Word) : State := next s (.regWrite (.offset 0x0C) 4 w)

/-- A unit in its own turn: `ran op k` on `vec`. -/
abbrev unit (op : Instr) (k : Nat) : State := ran op k

/-- What is to come is no part of the invariant. -/
theorem inv_of_agenda (s : State) (a : List Event) (h : s.Inv) : ({ s with agenda := a } : State).Inv :=
  ⟨h.target, h.memory, h.status, h.busy, fun r hr =>
    let l := h.running r hr
    ⟨l.accepted, l.checked, l.inside, l.no_strip, l.width, l.reference_width, l.reads_first, l.no_store, l.kept,
      l.unfinished, l.seen, l.md, l.eq_iff, l.borrowed, l.raced, l.hung⟩, h.maxdiff, h.equal⟩

theorem inv_idle : idle.Inv := by
  constructor <;> first | decide | (intro r h; cases h) | (constructor <;> decide)

theorem inv_ready : ready.Inv := by
  constructor <;> first | decide | (intro r h; cases h) | (constructor <;> decide)

theorem inv_scalar_ready : (readyOn scalar).Inv := by
  constructor <;> first | decide | (intro r h; cases h) | (constructor <;> decide)

/-- `s` with the response m to its next transaction. -/
def failing (s : State) (m : MemResponse) : State := { s with responses := { listed := [m], rest := some .ok } }

/-- The states of every running command, before its first step and inside an open strip. -/
theorem running_mac : Running .mac (unit .mac 0) (theRun (unit .mac 0)) := by
  refine ⟨?_, rfl, rfl, rfl, rfl⟩
  constructor <;> first | decide | (intro r h; cases h; constructor <;> decide) | (constructor <;> decide)

theorem running_clamp : Running .clamp (unit .clamp 0) (theRun (unit .clamp 0)) := by
  refine ⟨?_, rfl, rfl, rfl, rfl⟩
  constructor <;> first | decide | (intro r h; cases h; constructor <;> decide) | (constructor <;> decide)

theorem running_axpyRef_start : Running .axpyRef (unit .axpyRef 0) (theRun (unit .axpyRef 0)) := by
  refine ⟨?_, rfl, rfl, rfl, rfl⟩
  constructor <;> first | decide | (intro r h; cases h; constructor <;> decide) | (constructor <;> decide)

theorem running_axpyRef : Running .axpyRef (unit .axpyRef 1) (theRun (unit .axpyRef 1)) := by
  refine ⟨?_, rfl, rfl, rfl, rfl⟩
  constructor <;> first | decide | (intro r h; cases h; constructor <;> decide) | (constructor <;> decide)

theorem running_axpyRef_end : Running .axpyRef (unit .axpyRef 3) (theRun (unit .axpyRef 3)) := by
  refine ⟨?_, rfl, rfl, rfl, rfl⟩
  constructor <;> first | decide | (intro r h; cases h; constructor <;> decide) | (constructor <;> decide)

theorem running_axpyVec_start : Running .axpyVec (unit .axpyVec 0) (theRun (unit .axpyVec 0)) := by
  refine ⟨?_, rfl, rfl, rfl, rfl⟩
  constructor <;> first | decide | (intro r h; cases h; constructor <;> decide) | (constructor <;> decide)

theorem running_axpyVec : Running .axpyVec (unit .axpyVec 2) (theRun (unit .axpyVec 2)) := by
  refine ⟨?_, rfl, rfl, rfl, rfl⟩
  constructor <;> first | decide | (intro r h; cases h; constructor <;> decide) | (constructor <;> decide)

theorem running_axpyVec_end : Running .axpyVec (unit .axpyVec 4) (theRun (unit .axpyVec 4)) := by
  refine ⟨?_, rfl, rfl, rfl, rfl⟩
  constructor <;> first | decide | (intro r h; cases h; constructor <;> decide) | (constructor <;> decide)

theorem running_axpyVec_scalar :
    Running .axpyVec (ranOn scalar .axpyVec 0) (theRun (ranOn scalar .axpyVec 0)) := by
  refine ⟨?_, rfl, rfl, rfl, rfl⟩
  constructor <;> first | decide | (intro r h; cases h; constructor <;> decide) | (constructor <;> decide)

theorem running_compare_start : Running .compare (unit .compare 0) (theRun (unit .compare 0)) := by
  refine ⟨?_, rfl, rfl, rfl, rfl⟩
  constructor <;> first | decide | (intro r h; cases h; constructor <;> decide) | (constructor <;> decide)

theorem running_compare : Running .compare (unit .compare 2) (theRun (unit .compare 2)) := by
  refine ⟨?_, rfl, rfl, rfl, rfl⟩
  constructor <;> first | decide | (intro r h; cases h; constructor <;> decide) | (constructor <;> decide)

theorem running_compare_end : Running .compare (unit .compare 3) (theRun (unit .compare 3)) := by
  refine ⟨?_, rfl, rfl, rfl, rfl⟩
  constructor <;> first | decide | (intro r h; cases h; constructor <;> decide) | (constructor <;> decide)

/-- The buffers of a running AXPY_REF are in ordinary memory, with the device beside them. -/
theorem placed_axpyRef : ∀ k ≤ 2, (unit .axpyRef k).Placed := by
  intro k hk r h
  interval_cases k <;> cases h <;> decide

theorem ready_axpyRef : Ready .axpyRef ready := ⟨inv_ready, rfl, by decide, rfl⟩
theorem ready_axpyVec : Ready .axpyVec ready := ⟨inv_ready, rfl, by decide, rfl⟩
theorem ready_compare : Ready .compare ready := ⟨inv_ready, rfl, by decide, rfl⟩
theorem ready_serves : ready.Serves := ⟨rfl, ⟨by simp [ready, readyOn, idleOn], rfl⟩⟩
theorem ready_capinLegal : ready.CapinLegal := by
  refine ⟨by simp [ready, readyOn, idleOn], fun w h => ?_⟩
  cases h
  decide

/-- An AXPY_REF that has read a[0] and not yet b[0]. -/
theorem progress_axpyRef : AxpyProgress ready.mem (unit .axpyRef 1) (theRun (unit .axpyRef 1)) := by
  refine ⟨fun i h => absurd h (Nat.not_lt_zero i), fun j l h => ?_, fun i h h' => ?_, fun a _ => rfl⟩
  · match j, h with
    | 0, h =>
      cases h
      exact ⟨fun v h => by cases h; decide, fun v h => (by cases h), fun h => absurd h (by decide), fun v h => (by cases h),
        fun _ => rfl⟩
    | j + 1, h => exact nomatch (show (none : Option Lane) = some l from h)
  · exact absurd h' (Nat.not_lt.mpr h)

/-- A COMPARE whose strip has read ref[0]. -/
theorem progress_compare : CompareProgress ready.mem (unit .compare 2) (theRun (unit .compare 2)) := by
  refine ⟨rfl, fun j l v h h' => ?_, fun j l v h h' => ?_, ?_, rfl⟩
  · match j, h with
    | 0, h => cases h; cases h'; decide
    | j + 1, h => exact nomatch (show (none : Option Lane) = some l from h)
  · match j, h with
    | 0, h => cases h; cases h'
    | j + 1, h => exact nomatch (show (none : Option Lane) = some l from h)
  · exact ⟨fun _ i h => absurd h (Nat.not_lt_zero i), fun _ => rfl⟩

theorem witness_EncodeDecodeAgree : Instr.wf .compare = true ∧ decode 0x5 = .command .compare := by decide

theorem witness_DecodeMatchesOpcodeMap :
    (0x5 : Word) &&& 0xFFFFFFFF = 0x00000005 ∧ 6 ≤ (0x6 : Word).toNat ∧ 6 ≤ (0xFFFFFFFF : Word).toNat := by decide

theorem witness_DecoderIsTotal :
    (0x10 : Word).extractLsb' 4 28 ≠ 0 ∧ (0x5 : Word).extractLsb' 4 28 = 0 ∧ (0x5 : Word).extractLsb' 0 4 = 0x5 ∧
    (0x6 : Word).extractLsb' 4 28 = 0 ∧ (0x6 : BitVec 4) ≤ (0x6 : Word).extractLsb' 0 4 := by decide

/-- The CMD write by its host address, the unit's turn as an event and with no event to come, and an idle unit. -/
theorem witness_StepRunsTheDecodedCommand :
    (next idle (.regWrite (.address 0x400C) 4 1)).writesNext 0x0C 1 [] ∧ decode 1 = .command .mac ∧
    Instr.wf .mac = true ∧ (next (unit .mac 0) .unit).agenda = .unit :: [] ∧
    (unit .mac 0).run = some (theRun (unit .mac 0)) ∧ (unit .mac 0).agenda = [] ∧
    (theRun (unit .mac 0)).hung = false ∧ idle.agenda = [] ∧ idle.run = none :=
  ⟨⟨_, rfl, rfl⟩, rfl, rfl, rfl, rfl, rfl, rfl, rfl, rfl⟩

/-- NOP; a dropped word; an illegal word; a failing check; a memory command with N = 0; an accepted command. -/
theorem witness_IssueStep :
    ((atCmd idle 0).Inv ∧ (atCmd idle 0).writesNext 0x0C 0 [] ∧ decode 0 = .command .nop) ∧
    ((atCmd (unit .mac 0) 1).Inv ∧ decode 1 ≠ .command .nop ∧ (unit .mac 0).status.busy = true) ∧
    (decode 0x10 = .illegal (.reservedBits 1) ∧ idle.status.busy = false) ∧
    (decode 3 = .command .axpyRef ∧
      (capture .axpyRef { ready with yAddr := 0x12, n := 2 }).issueError = some (.overlap, 0x12)) ∧
    (capture .axpyRef { idle with aAddr := 1 }).issueError = none ∧ idle.n = 0 ∧
    ((atCmd ready 3).Inv ∧ (atCmd ready 3).writesNext 0x0C 3 [] ∧ (capture .axpyRef ready).issueError = none) :=
  ⟨⟨inv_of_agenda _ _ inv_idle, ⟨_, rfl, rfl⟩, rfl⟩,
    ⟨inv_of_agenda _ _ running_mac.inv, by decide, rfl⟩, ⟨by decide, rfl⟩, ⟨rfl, by decide⟩, by decide, rfl,
    ⟨inv_of_agenda _ _ inv_ready, ⟨_, rfl, rfl⟩, by decide⟩⟩

/-- A odd; B odd; Y odd; COMPARE with Y odd (ER7 to ER9, ER27). -/
theorem witness_AlignCheck :
    [capture .axpyRef { ready with aAddr := 0x1001 }, capture .axpyVec { ready with bAddr := 0x2001 },
      capture .axpyRef { ready with yAddr := 0x3001 }, capture .compare { ready with yAddr := 0x3001 }].map
        Snapshot.issueError =
      [some (.align, 0x1001), some (.align, 0x2001), some (.align, 0x3001), none] ∧
    IsMemoryCommand .axpyRef ∧ IsMemoryCommand .axpyVec ∧ IsMemoryCommand .compare ∧ 0 < ready.n.toNat :=
  ⟨by decide, .inl rfl, .inr (.inl rfl), .inr (.inr rfl), by decide⟩

/-- The last element ends at 2^32, or one element past it (ER11 to ER14). -/
theorem witness_RangeCheck :
    [capture .axpyVec { ready with aAddr := 0xFFFFFFFE }, capture .axpyVec { ready with aAddr := 0xFFFFFFFE, n := 2 },
      capture .axpyVec { ready with bAddr := 0xFFFFFF00, n := 0x80, yAddr := 0x3000 },
      capture .axpyVec { ready with bAddr := 0xFFFFFF00, n := 0x81, yAddr := 0x3000 },
      capture .axpyRef { ready with yAddr := 0xFFFFFFFE, n := 2 }].map Snapshot.issueError =
      [none, some (.range, 0xFFFFFFFE), none, some (.range, 0xFFFFFF00), some (.range, 0xFFFFFFFE)] ∧
    0 < (0x80 : Word).toNat := by decide

/-- y one element up, one element down, just after a, equal to a, on b (ER18 to ER23). -/
theorem witness_OverlapCheck :
    [0x1002, 0x0FFE, 0x1004, 0x0FFC, 0x1000, 0x2002].map (fun y => (capture .axpyVec
        { ready with n := 2, aAddr := 0x1000, bAddr := 0x2000, yAddr := y }).issueError) =
      [some (.overlap, 0x1002), some (.overlap, 0x0FFE), none, none, none, some (.overlap, 0x2002)] := by decide

theorem witness_PassedChecksKeepBuffersInside :
    IsMemoryCommand .axpyVec ∧ (capture .axpyVec { ready with aAddr := 0xFFFFFFFE }).issueError = none ∧
    (0xFFFFFFFE : Word) ∈ (capture .axpyVec { ready with aAddr := 0xFFFFFFFE }).bases ∧ 0 < ready.n.toNat :=
  ⟨.inr (.inl rfl), by decide, by decide, by decide⟩

theorem witness_ClampProperties : (-32768 : Int) ≤ 32767 ∧ clamp (-32768) = -32768 ∧ clamp 32767 = 32767 := by decide

/-- Each sign combination, and the one product that needs 32 bits. -/
theorem witness_ProductSigns :
    s16 0 = 0 ∧ 0 < s16 0x7FFF ∧ s16 0x8000 < 0 ∧ mac 0 0x8000 0x8000 > 32767 ∧ mac 0 0x7FFF 0x8000 < -32768 := by
  decide

theorem witness_MacBounds : (2 ^ 30 : Int) ≤ s16 0x8000 * s16 0x8000 ∧ 32 ≤ 33 := by decide

theorem witness_NopChangesNothing : (atCmd (unit .mac 0) 0).writesNext 0x0C 0x00000000 [] := ⟨_, rfl, rfl⟩

theorem witness_MacCommand :
    Running .mac (unit .mac 0) (theRun (unit .mac 0)) ∧ (theRun (unit .mac 0)).accRaced = false ∧
    ready.status.busy = false := ⟨running_mac, rfl, rfl⟩

theorem witness_ClampCommand :
    Running .clamp (unit .clamp 0) (theRun (unit .clamp 0)) ∧ (theRun (unit .clamp 0)).accRaced = false ∧
    ready.status.busy = false := ⟨running_clamp, rfl, rfl⟩

/-- ACC written by the host while CLAMP runs. -/
theorem witness_AccWrittenDuringClamp :
    Running .clamp { unit .clamp 0 with run := some { theRun (unit .clamp 0) with accRaced := true } }
      { theRun (unit .clamp 0) with accRaced := true } ∧
    (orElse idle (step (next (unit .clamp 0) (.regWrite (.offset 0x30) 4 7)))).run =
      some { theRun (unit .clamp 0) with accRaced := true } := by
  refine ⟨⟨?_, rfl, rfl, rfl, rfl⟩, rfl⟩
  constructor <;> first | decide | (intro r h; cases h; constructor <;> decide) | (constructor <;> decide)

theorem witness_StatusAcknowledge :
    (next (ran .mac 1) (.regWrite (.offset 0x10) 4 0xE)).writesNext 0x10 0x0000000E [] ∧
    (ran .mac 1).status.done = true := ⟨⟨_, rfl, rfl⟩, rfl⟩

/-- The first and the last reserved offset, and ACC while MAC runs. -/
theorem witness_RegisterWrites :
    (next idle (.regWrite (.offset 0x44) 4 5)).writesNext 0x44 5 [] ∧
    (next idle (.regWrite (.address 0x40FC) 4 5)).writesNext 0xFC 5 [] ∧
    (next (unit .mac 0) (.regWrite (.offset 0x30) 4 5)).writesNext 0x30 5 [] :=
  ⟨⟨_, rfl, rfl⟩, ⟨_, rfl, rfl⟩, ⟨_, rfl, rfl⟩⟩

theorem witness_RegisterReadsWhileIdle :
    (next idle (.regRead (.offset 0xFC) 4)).Inv ∧ idle.run = none ∧
    (next idle (.regRead (.offset 0xFC) 4)).readsNext 0xFC [] ∧ 0xFC < 0x100 ∧ 0xFC % 4 = 0 :=
  ⟨inv_of_agenda _ _ inv_idle, rfl, ⟨_, rfl, rfl⟩, by decide, by decide⟩

/-- RG5: the bits above 15 are dropped. -/
theorem witness_SixteenBitRegistersReadBack :
    let s := { idle with agenda := [.regWrite (.offset 0x18) 4 0x12348000, .regRead (.offset 0x18) 4] }
    s.writesNext 0x18 0x12348000 (.regRead (.offset 0x18) 4 :: []) ∧
    step s = .next { s with agenda := [.regRead (.offset 0x18) 4], alpha := 0x8000 } := ⟨⟨_, rfl, rfl⟩, rfl⟩

/-- A CMD write that starts a command, and one with b on a device; a byte access, an offset that is not word-aligned, and
the first offset past the window. -/
theorem witness_UndefinedAccessesAreRefused :
    (∃ t, step (atCmd ready 3) = .next t) ∧ decode 3 = .command .axpyRef ∧
    (capture .axpyRef ready).issueError = none ∧ (capture .axpyRef ready).inOrdinaryMemory holed = false ∧
    step (atCmd { ready with target := holed } 3) = .refused .notOrdinaryMemory ∧
    (next idle (.regRead (.offset 0x10) 1)).agenda = .regRead (.offset 0x10) 1 :: [] ∧ (1 ≠ 4) ∧
    (Place.offset 0x11).resolve vec = some 0x11 ∧ 0x11 % 4 ≠ 0 ∧ (Place.offset 0x100).resolve vec = some 0x100 ∧
    (Place.address 0x4100).resolve vec = none ∧ (Place.address 0x40FC).resolve vec = some 0xFC :=
  ⟨⟨_, rfl⟩, by decide, by decide, by decide, rfl, by decide⟩

theorem witness_RegisterReadsWhileBusy :
    (next (unit .axpyRef 1) (.regRead (.offset 0x3C) 4)).Inv ∧
    (unit .axpyRef 1).run = some (theRun (unit .axpyRef 1)) ∧
    (next (unit .axpyRef 1) (.regRead (.offset 0x3C) 4)).readsNext 0x3C [] ∧
    (next (unit .mac 0) (.regRead (.offset 0x34) 4)).readsNext 0x34 [] :=
  ⟨inv_of_agenda _ _ running_axpyRef.inv, rfl, ⟨_, rfl, rfl⟩, ⟨_, rfl, rfl⟩⟩

/-- ACC and RES during MAC, MAXDIFF and STATUS during COMPARE, PROCESSED at both ends of its range. -/
theorem witness_OpenReadsTakeEveryValue :
    (unit .mac 0).Inv ∧ (unit .compare 2).Inv ∧ (unit .axpyRef 1).Inv ∧
    (theRun (unit .mac 0)).snap.op = .mac ∧ (∃ p : Sample, (0xFFFF8000 : Word) = p.signExtend 32) ∧
    (theRun (unit .compare 2)).snap.op = .compare ∧ (∃ b, (0x101 : Word) = { (unit .compare 2).status with equal := b }.word) ∧
    (theRun (unit .axpyRef 1)).seen ≤ (0 : Word).toNat ∧
    (1 : Word).toNat ≤ (theRun (unit .axpyRef 1)).snap.n.toNat :=
  ⟨running_mac.inv, running_compare.inv, running_axpyRef.inv, rfl, ⟨0x8000, by decide⟩, rfl, ⟨true, by decide⟩,
    by decide, by decide⟩

/-- A write to ACC while MAC runs, then MAC's own step; a STATUS write while busy. -/
theorem witness_WritesWhileBusy :
    (next (unit .mac 0) (.regWrite (.offset 0x30) 4 7)).Inv ∧
    (next (unit .mac 0) (.regWrite (.offset 0x30) 4 7)).writesNext 0x30 7 [] ∧
    (next (unit .mac 0) (.regWrite (.offset 0x10) 4 8)).writesNext 0x10 8 [] ∧
    Running .mac { unit .mac 0 with run := some { theRun (unit .mac 0) with accRaced := true } }
      { theRun (unit .mac 0) with accRaced := true } := by
  refine ⟨inv_of_agenda _ _ running_mac.inv, ⟨_, rfl, rfl⟩, ⟨_, rfl, rfl⟩, ⟨?_, rfl, rfl, rfl, rfl⟩⟩
  constructor <;> first | decide | (intro r h; cases h; constructor <;> decide) | (constructor <;> decide)

/-- IR1: a completion with IE = 1; an acceptance. -/
theorem witness_InterruptLine :
    (next idle .irqSample).agenda = .irqSample :: [] ∧
    (next idle (.regWrite (.offset 0x08) 4 1)).writesNext 0x08 1 [] ∧
    (unit .mac 0).Inv ∧ (unit .mac 0).run ≠ none ∧ step (unit .mac 0) = .next (ran .mac 1) ∧ (ran .mac 1).run = none ∧
    (atCmd ready 3).Inv ∧ (atCmd ready 3).run = none ∧ (orElse idle (step (atCmd ready 3))).run ≠ none ∧
    (atCmd idle 7).writesNext 0x0C 7 [] ∧ decode 7 = .illegal (.reservedOpcode 7) ∧
    (capture .axpyRef { ready with aAddr := 0x11 }).issueError ≠ none :=
  ⟨rfl, ⟨_, rfl, rfl⟩, running_mac.inv, by decide, rfl, rfl, inv_of_agenda _ _ inv_ready, rfl, by decide, ⟨_, rfl, rfl⟩,
    by decide, by decide⟩

/-- A reset of an idle unit, of a COMPARE and of an AXPY_REF inside its strip. -/
theorem witness_ResetStep :
    (next idle .reset).Inv ∧ idle.run = none ∧ (next (unit .compare 2) .reset).Inv ∧
    ¬ IsAxpy (theRun (unit .compare 2)).snap.op ∧ (next (unit .axpyRef 1) .reset).Inv ∧
    IsAxpy (theRun (unit .axpyRef 1)).snap.op ∧
    AxpyProgress ready.mem (unit .axpyRef 1) (theRun (unit .axpyRef 1)) :=
  ⟨inv_of_agenda _ _ inv_idle, rfl, inv_of_agenda _ _ running_compare.inv, (by rintro (h | h) <;> cases h),
    inv_of_agenda _ _ running_axpyRef.inv, .inl rfl, progress_axpyRef⟩

/-- A strip of two elements after both of the first one's reads and its store: a reset puts the old element back, or
leaves the new one, by the draw. -/
def halfStored : State :=
  { unit .axpyVec 1 with
    run := some
      { theRun (unit .axpyVec 1) with
        lanes := [{ a := some 100, b := some 50, stored := true, before := some 9 }, Lane.fresh] }
    mem := [(0x10, 100), (0x20, 50), (0x30, 250)] }

/-- R230, O8. -/
theorem test_reset_of_a_stored_lane :
    [0, 1].map (fun d => Memory.readSample
      { halfStored with choices := { listed := [d], rest := none } }.resetUnit.mem 0x30) = [9, 250] := by decide

/-- An AXPY_REF whose two reads were made, at a reset and with its store about to fail. -/
theorem witness_OpenStripTakesEveryOutcome :
    (next (unit .axpyRef 2) .reset).Inv ∧ (unit .axpyRef 2).run = some (theRun (unit .axpyRef 2)) ∧
    IsAxpy (theRun (unit .axpyRef 2)).snap.op ∧
    AxpyProgress ready.mem (unit .axpyRef 2) (theRun (unit .axpyRef 2)) ∧
    (∀ l ∈ (theRun (unit .axpyRef 2)).lanes, l.a ≠ none ∧ l.b ≠ none) ∧
    ((unit .axpyRef 2).turn = .unit ∧ (theRun (unit .axpyRef 2)).hung = false ∧
      (unit .axpyRef 2).target.coherent = true ∧ (unit .axpyRef 2).Placed ∧
      (failing (unit .axpyRef 2) .error).afterChoice.response = .error ∧
      Xact.store 0 ∈ enabledFrom Instr.axpyRef.writesY 0 (theRun (unit .axpyRef 2)).lanes) := by
  refine ⟨inv_of_agenda _ _ ?_, rfl, .inl rfl, ⟨fun i h => absurd h (Nat.not_lt_zero i), fun j l h => ?_, fun i h h' => ?_,
    fun a _ => rfl⟩, by decide, rfl, rfl, rfl, placed_axpyRef 2 (by decide), rfl, by decide⟩
  · constructor <;> first | decide | (intro r h; cases h; constructor <;> decide) | (constructor <;> decide)
  · match j, h with
    | 0, h =>
      cases h
      exact ⟨fun v h => by cases h; decide, fun v h => (by cases h; decide), fun h => absurd h (by decide),
        fun v h => (by cases h), fun _ => rfl⟩
    | j + 1, h => exact nomatch (show (none : Option Lane) = some l from h)
  · exact absurd h' (Nat.not_lt.mpr h)

/-- A reset of a COMPARE and of an AXPY_REF inside its strip. -/
theorem witness_ResetValues :
    (next (unit .axpyRef 1) .reset).Inv ∧ (next (unit .axpyRef 1) .reset).agenda = .reset :: [] ∧
    (orElse idle (step (next (unit .compare 2) .reset))).mem = ready.mem :=
  ⟨inv_of_agenda _ _ running_axpyRef.inv, rfl, by decide⟩

theorem witness_ResetKeepsInv : vec.wf = true ∧ scalar.wf = true := by decide

/-- The last sample of the address space. -/
theorem witness_LittleEndian : Memory.wf ready.mem ∧ 0xFFFFFFFE + 2 ≤ 2 ^ 32 ∧ (0x10 : Word).toNat % 4 = 0 := by decide

/-- While AXPY_REF runs: a store one byte below a (its last byte is lent), a store just past y, loads of both kinds;
and a STATUS read of an idle unit with a loan left. -/
theorem witness_BorrowedBuffersAreRefused :
    (unit .axpyRef 1).Inv ∧ IsMemoryCommand (theRun (unit .axpyRef 1)).snap.op ∧
    (∃ k ∈ (unit .axpyRef 1).loans, Borrowed k (0x0F + 1)) ∧
    (¬ ∃ k ∈ (unit .axpyRef 1).loans, Borrowed k 0x32 ∨ Borrowed k (0x32 + 1)) ∧
    (∃ k ∈ (unit .axpyRef 1).loans, k.op.writesY = true ∧ inBuffer k k.yAddr 0x30) ∧
    (¬ ∃ k ∈ (unit .axpyRef 1).loans, k.op.writesY = true ∧ (inBuffer k k.yAddr 0x10 ∨ inBuffer k k.yAddr (0x10 + 1))) ∧
    capture .axpyRef ready ∈ (ran .axpyRef 4).loans ∧
    (orElse idle (step (next (ran .axpyRef 4) (.regRead (.offset 0x10) 4)))).loans = [] := by
  have e : (unit .axpyRef 1).loans = [capture .axpyRef ready] := rfl
  have m : capture .axpyRef ready ∈ [capture .axpyRef ready] := by simp
  rw [e]
  refine ⟨running_axpyRef.inv, .inl rfl, ⟨_, m, 0x10, by decide, by decide, by decide⟩, ?_,
    ⟨_, m, rfl, by decide, by decide⟩, ?_, m, rfl⟩
  · rintro ⟨k, hk, h⟩
    cases List.mem_singleton.mp hk
    have e : (capture .axpyRef ready).bases = [0x10, 0x20, 0x30] := rfl
    simp only [Borrowed, e, List.mem_cons, List.not_mem_nil, or_false] at h
    rcases h with ⟨b, rfl | rfl | rfl, h1, h2⟩ | ⟨b, rfl | rfl | rfl, h1, h2⟩ <;> revert h1 h2 <;> decide
  · rintro ⟨k, hk, -, h⟩
    cases List.mem_singleton.mp hk
    rcases h with ⟨h1, h2⟩ | ⟨h1, h2⟩ <;> revert h1 h2 <;> decide

/-- The step that stores y, and a host store. -/
theorem witness_OnlyAxpyAndHostStoresWriteMemory :
    (unit .axpyVec 3).agenda = [] ∧ step (unit .axpyVec 3) = .next (ran .axpyVec 4) ∧
    Memory.readByte (ran .axpyVec 4).mem 0x30 ≠ Memory.readByte (ran .axpyVec 3).mem 0x30 ∧
    Memory.readByte (orElse idle (step (next idle (.memWrite 0x51 0x0201)))).mem 0x52 ≠ Memory.readByte idle.mem 0x52 :=
  ⟨rfl, rfl, by decide, by decide⟩

/-- Steps that change RES, MAXDIFF, PROCESSED, ERRADDR, OVR (both ways) and N. -/
theorem witness_WhichStepsWriteWhichRegister :
    (unit .mac 0).Inv ∧ step (unit .mac 0) = .next (ran .mac 1) ∧ (ran .mac 1).res ≠ (unit .mac 0).res ∧
    (ran .mac 1).acc ≠ (unit .mac 0).acc ∧ (ran .compare 4).maxdiff ≠ (unit .compare 3).maxdiff ∧
    (ran .compare 3).processed ≠ (unit .compare 2).processed ∧
    (orElse idle (step (atCmd { ready with aAddr := 0x11 } 3))).erraddr ≠ ready.erraddr ∧
    (orElse idle (step (atCmd (unit .mac 0) 7))).status.ovr = true ∧ (unit .mac 0).status.ovr = false ∧
    (orElse idle (step (next idle (.regWrite (.offset 0x14) 4 9)))).n ≠ idle.n :=
  ⟨running_mac.inv, rfl, by decide, by decide, by decide, by decide, by decide, by decide, by decide, by decide⟩

/-- A fresh lane, and one that is ready to store beside one that has stored. -/
theorem witness_EnabledTransactions :
    enabledFrom Instr.axpyRef.writesY 0 [Lane.fresh] = [.readA 0, .readB 0] ∧
    enabledFrom Instr.axpyVec.writesY 0
      [{ a := some 1, b := some 2, stored := true, before := some 0 },
       { a := some 1, b := some 2, stored := false, before := none }] = [.store 1] ∧
    pick [Xact.readA 0, .readB 0] 1 = some (.readB 0) := by decide

/-- A read of b in AXPY_REF, a read of a in AXPY_VEC and COMPARE, a store in AXPY_VEC. -/
theorem witness_OneTransactionPerStep :
    IsMemoryCommand .axpyRef ∧ Running .axpyRef (unit .axpyRef 1) (theRun (unit .axpyRef 1)) ∧
    (theRun (unit .axpyRef 1)).lanes ≠ [] ∧ (unit .axpyRef 1).target.coherent = true ∧
    (unit .axpyRef 1).Placed ∧ (unit .axpyRef 1).afterChoice.response = .ok ∧
    Running .axpyVec (unit .axpyVec 2) (theRun (unit .axpyVec 2)) ∧ (theRun (unit .axpyVec 2)).lanes ≠ [] ∧
    Running .compare (unit .compare 2) (theRun (unit .compare 2)) ∧ (theRun (unit .compare 2)).lanes ≠ [] :=
  ⟨.inl rfl, running_axpyRef, by decide, rfl, placed_axpyRef 1 (by decide), rfl, running_axpyVec, by decide, running_compare, by decide⟩

theorem witness_ScalarStripsHaveOneElement :
    Running .axpyRef (unit .axpyRef 0) (theRun (unit .axpyRef 0)) ∧ (theRun (unit .axpyRef 0)).lanes = [] ∧
    (unit .axpyRef 0).processed.toNat < (theRun (unit .axpyRef 0)).snap.n.toNat ∧
    Running .axpyVec (ranOn scalar .axpyVec 0) (theRun (ranOn scalar .axpyVec 0)) ∧
    (ranOn scalar .axpyVec 0).target.hasVector = false :=
  ⟨running_axpyRef_start, rfl, by decide, running_axpyVec_scalar, rfl⟩

/-- An answer of 1, of VLMAX, of VLMAX + 1 and of 0. -/
theorem witness_ChunkWidth :
    Running .axpyVec (unit .axpyVec 0) (theRun (unit .axpyVec 0)) ∧
    Running .compare (unit .compare 0) (theRun (unit .compare 0)) ∧ (unit .axpyVec 0).target.hasVector = true ∧
    (theRun (unit .axpyVec 0)).lanes = [] ∧
    (unit .axpyVec 0).processed.toNat < (theRun (unit .axpyVec 0)).snap.n.toNat ∧
    [1, 4, 5, 0].map (fun w => { unit .axpyVec 0 with capin := { listed := [w], rest := none } }.chunkAnswer) =
      [1, 4, 5, 0] ∧ vec.vlmax = 4 ∧ ready.CapinLegal :=
  ⟨running_axpyVec_start, running_compare_start, rfl, rfl, by decide, by decide, rfl, ready_capinLegal⟩

theorem witness_LastStepCompletes :
    Running .axpyRef (unit .axpyRef 3) (theRun (unit .axpyRef 3)) ∧
    (unit .axpyRef 3).processed = (theRun (unit .axpyRef 3)).snap.n ∧
    Running .axpyVec (unit .axpyVec 4) (theRun (unit .axpyVec 4)) ∧
    (unit .axpyVec 4).processed = (theRun (unit .axpyVec 4)).snap.n ∧
    Running .compare (unit .compare 3) (theRun (unit .compare 3)) ∧
    (unit .compare 3).processed = (theRun (unit .compare 3)).snap.n :=
  ⟨running_axpyRef_end, by decide, running_axpyVec_end, by decide, running_compare_end, by decide⟩

/-- ER6: N = 0 with an odd A. -/
theorem witness_EmptyInput :
    IsAxpy .axpyRef ∧ IsAxpy .axpyVec ∧ { idle with aAddr := 0x1001 }.status.busy = false ∧ idle.n = 0 :=
  ⟨.inl rfl, .inr rfl, rfl, rfl⟩

theorem running_failing_axpyRef :
    ∀ m ∈ [MemResponse.error, .silent], Running .axpyRef (failing (unit .axpyRef 1) m) (theRun (unit .axpyRef 1)) := by
  intro m hm
  refine ⟨?_, rfl, rfl, rfl, rfl⟩
  fin_cases hm <;> constructor <;>
    first | decide | (intro r h; cases h; constructor <;> decide) | (constructor <;> decide)

theorem running_failing_compare : Running .compare (failing (unit .compare 2) .error) (theRun (unit .compare 2)) := by
  refine ⟨?_, rfl, rfl, rfl, rfl⟩
  constructor <;> first | decide | (intro r h; cases h; constructor <;> decide) | (constructor <;> decide)

theorem witness_StateAfterBusError :
    (failing (unit .axpyRef 1) .error).afterChoice.response = .error ∧
    Running .axpyRef (failing (unit .axpyRef 1) .error) (theRun (unit .axpyRef 1)) ∧
    (orElse idle (exec .axpyRef (failing (unit .axpyRef 1) .error))).run = none ∧
    (orElse idle (exec .axpyRef (failing (unit .axpyRef 1) .error))).status.word = 0x056 ∧
    (orElse idle (exec .axpyRef (failing (unit .axpyRef 1) .error))).erraddr = 0x20 ∧
    Running .compare (failing (unit .compare 2) .error) (theRun (unit .compare 2)) ∧
    (orElse idle (exec .compare (failing (unit .compare 2) .error))).status.word = 0x156 ∧
    AxpyProgress ready.mem (unit .axpyRef 1) (theRun (unit .axpyRef 1)) ∧
    CompareProgress ready.mem (unit .compare 2) (theRun (unit .compare 2)) :=
  ⟨rfl, running_failing_axpyRef _ (by simp), rfl, by decide, by decide, running_failing_compare, by decide, progress_axpyRef,
    progress_compare⟩

/-- A transaction without a response, and the stuck unit it leaves, which goes nowhere but by reset. -/
theorem witness_StuckUntilReset :
    (failing (unit .axpyRef 1) .silent).afterChoice.response = .silent ∧
    Running .axpyRef (failing (unit .axpyRef 1) .silent) (theRun (unit .axpyRef 1)) ∧
    { unit .axpyRef 1 with run := some { theRun (unit .axpyRef 1) with hung := true } }.Inv ∧
    (unit .axpyRef 1).turn = .unit ∧ (unit .axpyRef 1).agenda = [] := by
  refine ⟨rfl, running_failing_axpyRef _ (by simp), ?_, rfl, rfl⟩
  constructor <;> first | decide | (intro r h; cases h; constructor <;> decide) | (constructor <;> decide)

/-- At issue: b's last byte in a device, and the byte after it; in a strip: the read of b, and a platform that is not
coherent. -/
theorem witness_PlatformRefusals :
    (exec .axpyRef { ready with target := holed } = .refused .notOrdinaryMemory ∧
      inBuffer (capture .axpyRef ready) 0x20 0x21 ∧ inDevice holed 0x21) ∧
    (capture .axpyRef ready).inOrdinaryMemory vec = true ∧
    { unit .axpyRef 1 with target := { vec with coherent := false } }.Inv ∧
    { unit .axpyRef 1 with target := holed }.Inv ∧
    pick (enabledFrom Instr.axpyRef.writesY 0 (theRun (unit .axpyRef 1)).lanes) (unit .axpyRef 1).choice =
      some (.readB 0) ∧
    (Xact.readB 0).address (theRun (unit .axpyRef 1)).snap 0 + 1 = 0x21 := by
  refine ⟨⟨rfl, ⟨by decide, by decide⟩, ⟨_, List.mem_singleton.mpr rfl, by decide, by decide⟩⟩, by decide, ?_, ?_, by decide,
    by decide⟩ <;>
  constructor <;> first | decide | (intro r h; cases h; constructor <;> decide) | (constructor <;> decide)

/-- Devices beside the buffers of a command, and one inside that the host stores to. -/
theorem witness_BuffersStayInOrdinaryMemory :
    (unit .axpyRef 1).Placed ∧
    Running .axpyRef (unit .axpyRef 1) (theRun (unit .axpyRef 1)) ∧ inDevice holed 0x21 ∧
    Memory.readByte (orElse idle (step (next { idle with target := holed } (.memWrite 0x20 0x0100)))).mem 0x21 ≠
      Memory.readByte idle.mem 0x21 := by
  exact ⟨placed_axpyRef 1 (by decide), running_axpyRef, ⟨_, List.mem_singleton.mpr rfl, by decide, by decide⟩, by decide⟩

theorem witness_StepKeepsInv : (unit .axpyVec 3).Inv ∧ step (unit .axpyVec 2) = .next (ran .axpyVec 3) := by
  refine ⟨?_, rfl⟩
  constructor <;> first | decide | (intro r h; cases h; constructor <;> decide) | (constructor <;> decide)

/-- The next step of AXPY_REF, and a host store beside its buffers. -/
theorem witness_StepKeepsAxpyProgress :
    Memory.wf ready.mem ∧ (unit .axpyRef 1).Inv ∧ IsAxpy (theRun (unit .axpyRef 1)).snap.op ∧
    AxpyProgress ready.mem (unit .axpyRef 1) (theRun (unit .axpyRef 1)) ∧
    step (unit .axpyRef 1) = .next (ran .axpyRef 2) ∧
    (orElse idle (step (next (unit .axpyRef 1) (.memWrite 0x32 7)))).mem = (0x10, 100) :: (0x20, 50) :: (0x32, 7) :: [] :=
  ⟨by decide, running_axpyRef.inv, .inl rfl, progress_axpyRef, rfl, by decide⟩

/-- COMPARE's next step, a host store beside its buffers, and a WAIT while it runs. -/
theorem witness_CompareStepKeepsProgress :
    (unit .compare 2).Inv ∧ (unit .compare 2).run = some (theRun (unit .compare 2)) ∧
    CompareProgress ready.mem (unit .compare 2) (theRun (unit .compare 2)) ∧
    step (unit .compare 2) = .next (ran .compare 3) ∧
    (orElse idle (step (next (unit .compare 2) (.memWrite 0x22 7)))).mem = (0x10, 100) :: (0x20, 50) :: (0x22, 7) :: [] ∧
    (orElse idle (step (next (unit .compare 2) .wait))).agenda = .unit :: .wait :: [] :=
  ⟨running_compare.inv, rfl, progress_compare, rfl, by decide, rfl⟩

theorem witness_AxpyResult :
    IsAxpy .axpyVec ∧ Ready .axpyVec ready ∧ wholeCommand .axpyVec 5 ready = .next (ran .axpyVec 5) ∧
    Succeeded (ran .axpyVec 5) := ⟨.inr rfl, ready_axpyVec, rfl, rfl, rfl⟩

theorem witness_AxpyRefCompletes : Ready .axpyRef ready ∧ ready.Serves := ⟨ready_axpyRef, ready_serves⟩

theorem witness_AxpyVecCompletes : Ready .axpyVec ready ∧ ready.Serves ∧ ready.CapinLegal :=
  ⟨ready_axpyVec, ready_serves, ready_capinLegal⟩

theorem witness_CompareResult :
    Ready .compare ready ∧ wholeCommand .compare 4 ready = .next (ran .compare 4) ∧ Succeeded (ran .compare 4) :=
  ⟨ready_compare, rfl, rfl, rfl⟩

theorem witness_CompareCompletes : Ready .compare ready ∧ ready.Serves ∧ ready.CapinLegal :=
  ⟨ready_compare, ready_serves, ready_capinLegal⟩

/-- The second unit draws 1 where the first draws 0, so it reads b first. -/
theorem witness_AxpyRefIsDeterministic :
    let s' := { ready with choices := { listed := [1], rest := some 0 } }
    Ready .axpyRef ready ∧ Ready .axpyRef s' ∧ SameOperands ready s' ∧ s'.mem = ready.mem ∧
    wholeCommand .axpyRef 4 ready = .next (ran .axpyRef 4) ∧ Succeeded (ran .axpyRef 4) ∧
    Succeeded (orElse idle (wholeCommand .axpyRef 4 s')) ∧ s'.status = ready.status := by
  refine ⟨ready_axpyRef, ⟨?_, rfl, by decide, rfl⟩, ⟨rfl, rfl, rfl, rfl, rfl⟩, rfl, rfl, ⟨rfl, rfl⟩, ⟨rfl, rfl⟩, rfl⟩
  constructor <;> first | decide | (intro r h; cases h) | (constructor <;> decide)

/-- The reference unit has no vector capability. -/
theorem witness_VectorEqualsReference :
    Ready .axpyRef (readyOn scalar) ∧ Ready .axpyVec ready ∧ SameOperands (readyOn scalar) ready ∧
    ready.mem = (readyOn scalar).mem ∧ wholeCommand .axpyRef 4 (readyOn scalar) = .next (ranOn scalar .axpyRef 4) ∧
    wholeCommand .axpyVec 5 ready = .next (ran .axpyVec 5) ∧ Succeeded (ranOn scalar .axpyRef 4) ∧
    Succeeded (ran .axpyVec 5) ∧ ready.status = (readyOn scalar).status :=
  ⟨⟨inv_scalar_ready, rfl, by decide, rfl⟩, ready_axpyVec, ⟨rfl, rfl, rfl, rfl, rfl⟩, rfl, rfl, rfl, ⟨rfl, rfl⟩, ⟨rfl, rfl⟩,
    rfl⟩

theorem witness_FallbackIsReference :
    Running .axpyVec (ranOn scalar .axpyVec 0) (theRun (ranOn scalar .axpyVec 0)) ∧
    (ranOn scalar .axpyVec 0).target.hasVector = false ∧
    exec .axpyVec (ranOn scalar .axpyVec 0) = .next (ranOn scalar .axpyVec 1) := ⟨running_axpyVec_scalar, rfl, rfl⟩

/-- T at 0x40, just past nothing of the first command. -/
theorem witness_AcceptanceRun :
    let t₁ := ran .axpyRef 4
    let s₂ := { t₁ with yAddr := 0x40 }
    let t₂ := orElse idle (wholeCommand .axpyVec 5 s₂)
    let s₃ := { t₂ with aAddr := 0x30, bAddr := 0x40 }
    Ready .axpyRef ready ∧ (0x10 : Word).toNat + 2 ≤ (0x30 : Word).toNat ∧ (0x20 : Word).toNat + 2 ≤ (0x30 : Word).toNat ∧
    (0x30 : Word).toNat + 2 ≤ (0x40 : Word).toNat ∧ (capture .axpyVec { ready with yAddr := 0x40 }).issueError = none ∧
    wholeCommand .axpyRef 4 ready = .next t₁ ∧ Succeeded t₁ ∧ wholeCommand .axpyVec 5 s₂ = .next t₂ ∧ Succeeded t₂ ∧
    Succeeded (orElse idle (wholeCommand .compare 4 s₃)) ∧ (orElse idle (wholeCommand .compare 4 s₃)).processed = 1 :=
  ⟨ready_axpyRef, by decide, by decide, by decide, by decide, rfl, ⟨rfl, rfl⟩, rfl, ⟨rfl, rfl⟩, ⟨rfl, rfl⟩, by decide⟩

theorem witness_MachineRunsWholeCommands :
    Instr.axpyRef ≠ .nop ∧ Ready .axpyRef ready ∧ ready.Serves ∧ ready.agenda = [] ∧
    wholeCommand .axpyRef 4 ready = .next (ran .axpyRef 4) := ⟨by decide, ready_axpyRef, ready_serves, rfl, rfl⟩

theorem witness_ScriptPseudoInstructions :
    (next idle .wait).Inv ∧ idle.run = none ∧ (next (unit .mac 0) .wait).Inv ∧ (theRun (unit .mac 0)).hung = false :=
  ⟨inv_of_agenda _ _ inv_idle, rfl, inv_of_agenda _ _ running_mac.inv, rfl⟩

end Sys2Proof.Tests
end

section
/-! PROOFS. What a step runs, and the own step of a memory command: its transactions, one at a time (R7, R43, R61, R68). -/

namespace Sys2Proof.Machine

/-! ## A step runs the decoded command -/

/-- R27, R200: a CMD write of a command's word is the host's turn in the command's meaning. -/
theorem step_of_cmdWrite (s : State) (rest : List Event) (w : Word) (i : Instr) (h : s.writesNext 0x0C w rest)
    (hd : decode w = .command i) : step s = exec i { s with agenda := rest, turn := .host } := by
  rw [step_writesNext s 0x0C w rest h]
  simp [registerAt, State.issueWord, hd]

/-- R43: the event that gives the unit its turn is the running command's own step. -/
theorem step_of_unitTurn (s : State) (rest : List Event) (r : Run) (h : s.agenda = .unit :: rest)
    (hr : s.run = some r) : step s = exec r.snap.op { s with agenda := rest, turn := .unit } := by
  rw [step_event s .unit rest h]
  simp [State.handle, State.unitTurn, hr]

/-- Settles O5: the two kinds of event by what `step` does with each, no event to come by `step_quiet`. -/
theorem stepRunsTheDecodedCommand : Obligations.StepRunsTheDecodedCommand := by
  refine ⟨fun s rest w i h hd _ => step_of_cmdWrite s rest w i h hd, step_of_unitTurn, ?_, ?_⟩
  · intro s r ha hr hh
    obtain ⟨hn, -⟩ | ⟨r', hr', hh', -⟩ | ⟨r', hr', -, h⟩ := step_quiet s ha
    · simp [hr] at hn
    · simp_all
    · obtain rfl : r = r' := by simpa [hr] using hr'
      exact h
  · intro s ha hn
    obtain ⟨-, h⟩ | ⟨r', hr', -⟩ | ⟨r', hr', -⟩ := step_quiet s ha
    · exact h
    · simp [hn] at hr'
    · simp [hn] at hr'

/-! ## The own step of a memory command -/

/-- R131, R151, R156: whether the command takes a CAPIN answer at the start of a strip. -/
def takesCapin (op : Instr) (t : Target) : Bool :=
  op != .axpyRef && t.hasVector

/-- R130, R150, R180, R201: the completion of a memory command; COMPARE's writes its report. -/
def State.finishMemory (s : State) (op : Instr) (r : Run) : State :=
  if op = .compare then (s.report r).complete else s.complete

theorem IsMemoryCommand.isMemory {op : Instr} (h : IsMemoryCommand op) : op.isMemory = true := by
  rcases h with rfl | rfl | rfl <;> rfl

/-- The unit's own step of each of the three commands that run over memory. -/
theorem exec_memory_unit {op : Instr} (hop : IsMemoryCommand op) (s : State) (r : Run) (ht : s.turn = .unit)
    (hr : s.run = some r) (ho : r.snap.op = op) (hh : r.hung = false) :
    exec op s = s.stripStep r (takesCapin op s.target) (s.finishMemory op) := by
  rcases hop with rfl | rfl | rfl
  · exact exec_axpyRef_unit s r ht hr ho hh
  · exact exec_axpyVec_unit s r ht hr ho hh
  · exact exec_compare_unit s r ht hr ho hh

/-- With a strip open the own step is a transaction. -/
theorem State.stripStep_open (s : State) (r : Run) (vector : Bool) (finish : Run → State) (h : r.lanes ≠ []) :
    s.stripStep r vector finish = s.transact r := by
  rcases s.stripStep_cases r vector finish with ⟨-, h'⟩ | ⟨hn, -⟩ | ⟨hn, -⟩ | ⟨hn, -⟩
  · exact h'
  all_goals exact absurd hn h

/-! ## A transaction reads the strip it is given, not the one the state holds -/

theorem State.settleStrip_withRun (s : State) (q : Option Run) (r : Run) :
    { s with run := q }.settleStrip r = s.settleStrip r := by
  unfold State.settleStrip
  split <;> rfl

theorem State.perform_withRun (s : State) (q : Option Run) (r : Run) (x : Xact) :
    { s with run := q }.perform r x = s.perform r x := by
  cases x with
  | readA j => exact s.settleStrip_withRun q _
  | readB j => exact s.settleStrip_withRun q _
  | store j =>
    simp only [State.perform]
    split
    · next v _ =>
      exact State.settleStrip_withRun
        { s with mem := Memory.writeSample s.mem ((Xact.store j).address r.snap s.processed.toNat) v } q _
    · rfl

theorem spillFrom_withRun (k : Snapshot) (p : Nat) (q : Option Run) (ls : List Lane) (j : Nat) (s : State) :
    spillFrom k p j ls { s with run := q } = { spillFrom k p j ls s with run := q } := by
  induction ls generalizing j s with
  | nil => rfl
  | cons l ls ih =>
    simp only [spillFrom]
    split
    · exact ih _ { s.afterChoice with mem := l.abandon s.mem _ _ (decide (s.choice % 2 = 1)) }
    · exact ih _ s

theorem State.busError_withRun (s : State) (q : Option Run) (r : Run) (addr : Nat) :
    { s with run := q }.busError r addr = s.busError r addr := by
  simp only [State.busError, State.spill]
  split
  · rfl
  · split
    · rw [spillFrom_withRun]
      rfl
    · rfl

theorem State.respond_withRun (s : State) (q : Option Run) (r : Run) (x : Xact) :
    { s with run := q }.respond r x = s.respond r x := by
  have hresponse : { s with run := q }.response = s.response := rfl
  unfold State.respond
  rw [hresponse]
  cases s.response with
  | ok => exact s.afterResponse.perform_withRun q r x
  | error => exact s.afterResponse.busError_withRun q r _
  | silent => rfl

theorem State.transact_withRun (s : State) (q : Option Run) (r : Run) :
    { s with run := q }.transact r = s.transact r := by
  have hchoice : { s with run := q }.choice = s.choice := rfl
  unfold State.transact
  rw [hchoice]
  cases pick (enabledFrom r.snap.op.writesY 0 r.lanes) s.choice with
  | none => exact congrArg Host.Outcome.next (s.afterChoice.settleStrip_withRun q r)
  | some x =>
    dsimp only
    split_ifs
    · rfl
    · rfl
    · rfl
    · exact congrArg Host.Outcome.next (s.afterChoice.respond_withRun q r x)

/-! ## A transaction takes no CAPIN answer -/

theorem State.settleStrip_capin (s : State) (r : Run) : (s.settleStrip r).capin = s.capin := by
  rcases s.settleStrip_cases r with ⟨-, h⟩ | ⟨-, h⟩ <;> exact h ▸ rfl

theorem State.perform_capin (s : State) (r : Run) (x : Xact) : (s.perform r x).capin = s.capin := by
  cases x with
  | readA j => exact s.settleStrip_capin _
  | readB j => exact s.settleStrip_capin _
  | store j =>
    simp only [State.perform]
    split
    · exact State.settleStrip_capin _ _
    · rfl

theorem State.busError_capin (s : State) (r : Run) (addr : Nat) : (s.busError r addr).capin = s.capin := by
  unfold State.busError
  split
  · rfl
  · obtain ⟨m, c, d, h, -⟩ := s.spill_frame r
    rw [h]
    rfl

theorem State.respond_capin (s : State) (r : Run) (x : Xact) : (s.respond r x).capin = s.capin := by
  unfold State.respond
  split
  · exact State.perform_capin _ _ _
  · exact State.busError_capin _ _ _
  · rfl

theorem State.transact_capin (s t : State) (r : Run) (h : s.transact r = .next t) : t.capin = s.capin := by
  rcases s.transact_cases r _ h with ⟨-, ht⟩ | ⟨x, l, -, -, -, ⟨-, ht⟩ | ⟨-, ht⟩ | ⟨-, ht⟩ | ⟨-, -, -, ht⟩⟩
  all_goals cases ht
  · exact State.settleStrip_capin _ _
  · exact State.respond_capin _ _ _

/-- Settles O39: both steps are the first transaction of a strip of one fresh lane. -/
theorem scalarStripsHaveOneElement : Obligations.ScalarStripsHaveOneElement := by
  intro op s r hop hscalar ⟨_, hturn, hrun, hsnap, hlive⟩ hl hp
  have hv : takesCapin op s.target = false := by
    rcases hscalar with rfl | h <;> simp [takesCapin, *]
  have hclosed : exec op s = s.transact (r.openStrip 1) := by
    rw [exec_memory_unit hop s r hturn hrun hsnap hlive]
    simp [State.stripStep, hl, hp, hv]
  have hopen : exec op { s with run := some { r with lanes := [Lane.fresh] } } = s.transact (r.openStrip 1) := by
    rw [exec_memory_unit hop { s with run := some { r with lanes := [Lane.fresh] } } _ hturn rfl hsnap hlive,
      State.stripStep_open _ _ _ _ (by simp)]
    exact s.transact_withRun _ _
  exact ⟨hclosed.trans hopen.symm, fun t ht => s.transact_capin t _ (hclosed ▸ ht)⟩

end Sys2Proof.Machine
end

section
/-! PROOFS. One transaction of an open strip on a platform that answers (R44, R61, R62, R65, R68). -/

namespace Sys2Proof.Machine

/-! ## What the checks of an issue give (R204 to R206, R65) -/

/-- R208: the checks find nothing exactly when each of the three finds nothing. -/
theorem Snapshot.firstError_eq_none (k : Snapshot) :
    k.firstError = none ↔ k.alignError = none ∧ k.rangeError = none ∧ k.overlapError = none := by
  unfold Snapshot.firstError
  cases k.alignError <;> cases k.rangeError <;> cases k.overlapError <;> simp

/-- R200: a memory command over at least one element that passes its issue passed all three checks. -/
theorem Snapshot.checks_of_issueError (k : Snapshot) (hop : k.op.isMemory = true) (hn : 0 < k.n.toNat)
    (h : k.issueError = none) : k.alignError = none ∧ k.rangeError = none ∧ k.overlapError = none := by
  have hn' : ¬k.n = 0#32 := fun e => by simp [e] at hn
  exact k.firstError_eq_none.mp (by simpa [Snapshot.issueError, hop, hn'] using h)

/-- R62, R205: element i < n of a buffer lies inside the address space. -/
theorem Snapshot.holds_elem (k : Snapshot) (hop : k.op.isMemory = true) (h : k.issueError = none) (b : Word)
    (hb : b ∈ k.bases) (i : Nat) (hi : i < k.n.toNat) : Memory.holds (elem b i) = true := by
  obtain ⟨-, hr, -⟩ := k.checks_of_issueError hop (by omega) h
  have hfit : b.toNat + k.bytes ≤ Memory.size := by simpa using List.find?_eq_none.mp hr b hb
  refine decide_eq_true ?_
  simp only [elem, Snapshot.bytes] at *
  omega

/-- Two ranges do not meet when no byte is in both. -/
theorem rangesMeet_eq_false (x lx y ly : Nat) :
    rangesMeet x lx y ly = false ↔ ¬(x < y + ly ∧ y < x + lx ∧ 0 < lx ∧ 0 < ly) := by
  simp [rangesMeet]

/-- R65: element i < n of a buffer is ordinary memory. -/
theorem Snapshot.ordinary_elem (k : Snapshot) (t : Target) (hop : k.op.isMemory = true)
    (h : k.inOrdinaryMemory t = true) (b : Word) (hb : b ∈ k.bases) (i : Nat) (hi : i < k.n.toNat) :
    ordinary t (elem b i) = true := by
  refine List.all_eq_true.mpr fun d hd => ?_
  have hall : t.devices.all (fun d => k.bases.all fun b => !rangesMeet b.toNat k.bytes d.1 d.2) = true := by
    simpa [Snapshot.inOrdinaryMemory, hop] using h
  have hapart : rangesMeet b.toNat k.bytes d.1 d.2 = false := by
    simpa using List.all_eq_true.mp (List.all_eq_true.mp hall d hd) b hb
  rw [rangesMeet_eq_false] at hapart
  rw [Bool.not_eq_true', rangesMeet_eq_false]
  simp only [Snapshot.bytes, elem] at *
  omega

/-! ## Where a transaction goes (R61) -/

/-- R61: the buffer of a transaction. -/
def Xact.base (x : Xact) (k : Snapshot) : Word :=
  match x with
  | .readA _ => k.aAddr
  | .readB _ => k.bAddr
  | .store _ => k.yAddr

theorem Xact.address_eq_elem (x : Xact) (k : Snapshot) (p : Nat) :
    x.address k p = elem (x.base k) (p + x.lane) := by
  cases x <;> rfl

theorem Snapshot.aAddr_mem_bases (k : Snapshot) : k.aAddr ∈ k.bases := by
  unfold Snapshot.bases
  split <;> simp

theorem Snapshot.bAddr_mem_bases (k : Snapshot) : k.bAddr ∈ k.bases := by
  unfold Snapshot.bases
  split <;> simp

theorem Snapshot.yAddr_mem_bases (k : Snapshot) (h : k.op.writesY = true) : k.yAddr ∈ k.bases := by
  simp [Snapshot.bases, h]

/-- A transaction that fits its lane goes to a buffer that the command uses. -/
theorem Xact.base_mem_bases (x : Xact) (k : Snapshot) (l : Lane) (h : x.fits k.op.writesY l) :
    x.base k ∈ k.bases := by
  cases x with
  | readA j => exact k.aAddr_mem_bases
  | readB j => exact k.bAddr_mem_bases
  | store j => exact k.yAddr_mem_bases h.1

/-! ## A transaction that succeeds -/

/-- What a transaction that succeeds leaves: a draw and a response are taken, one sample has moved, and the strip is
settled. -/
def State.afterTransaction (s : State) (r : Run) (x : Xact) : State :=
  { s with
    mem := s.memAfter r x
    choices := s.choices.advance
    responses := s.responses.advance
    drawn := s.drawn + 2 }.settleStrip
    { r with lanes := r.lanesAfter x (Memory.readSample s.mem (x.address r.snap s.processed.toNat)) }

/-- The lanes after a transaction: that of its own lane, and no other, has changed. -/
theorem Run.lanesAfter_eq_set (r : Run) (x : Xact) (v : Sample) (l : Lane) (h : r.lanes[x.lane]? = some l) :
    r.lanesAfter x v = r.lanes.set x.lane (l.after x v) := by
  simp [Run.lanesAfter, List.modify_eq_set_getElem?, h]

/-- R62, R65: a transaction of an open strip lies inside the address space and in ordinary memory. -/
theorem State.address_in_memory {s : State} {r : Run} (hop : r.snap.op.isMemory = true)
    (hchecked : r.snap.issueError = none) (hinside : s.processed.toNat + r.lanes.length ≤ r.snap.n.toNat)
    (hplaced : r.snap.inOrdinaryMemory s.target = true) (x : Xact) (l : Lane) (hl : r.lanes[x.lane]? = some l)
    (hf : x.fits r.snap.op.writesY l) :
    Memory.holds (x.address r.snap s.processed.toNat) = true ∧
      ordinary s.target (x.address r.snap s.processed.toNat) = true := by
  have hlane : x.lane < r.lanes.length := (List.getElem?_eq_some_iff.mp hl).1
  have hi : s.processed.toNat + x.lane < r.snap.n.toNat := by omega
  have hb := x.base_mem_bases r.snap l hf
  rw [Xact.address_eq_elem]
  exact ⟨r.snap.holds_elem hop hchecked _ hb _ hi, r.snap.ordinary_elem s.target hop hplaced _ hb _ hi⟩

/-- R61, R68: on a platform that answers, a strip with something left to do makes one transaction that fits its lane. -/
theorem State.transact_ok {s : State} {r : Run} (hop : r.snap.op.isMemory = true)
    (hchecked : r.snap.issueError = none) (hinside : s.processed.toNat + r.lanes.length ≤ r.snap.n.toNat)
    (hopen : r.lanes.all (Lane.finished r.snap.op.writesY) = false) (hcoherent : s.target.coherent = true)
    (hplaced : r.snap.inOrdinaryMemory s.target = true) (hok : s.afterChoice.response = .ok) :
    ∃ x l, r.lanes[x.lane]? = some l ∧ x.fits r.snap.op.writesY l ∧
      s.transact r = .next (s.afterTransaction r x) := by
  obtain ⟨y, hy⟩ := pick_of_unfinished r.snap.op.writesY r.lanes s.choice hopen
  rcases s.transact_cases r _ rfl with ⟨hnone, -⟩ | ⟨x, l, -, hl, hf, hout⟩
  · simp [hnone] at hy
  · obtain ⟨hholds, hord⟩ := State.address_in_memory hop hchecked hinside hplaced x l hl hf
    refine ⟨x, l, hl, hf, ?_⟩
    rcases hout with ⟨hc, -⟩ | ⟨hc, -⟩ | ⟨hc, -⟩ | ⟨-, -, -, hnext⟩
    · simp [hholds] at hc
    · simp [hcoherent] at hc
    · simp [hord] at hc
    · rw [hnext, State.respond, hok]
      exact congrArg Host.Outcome.next (s.afterChoice.afterResponse.perform_of_fits r x l hl hf)

/-- R61, R180: of the memory commands COMPARE alone writes nothing. -/
theorem IsMemoryCommand.not_writesY {op : Instr} (h : IsMemoryCommand op) :
    (!op.writesY) = decide (op = .compare) := by
  rcases h with rfl | rfl | rfl <;> rfl

/-- R61, R152, R153: the three kinds of transaction, by what each does to its lane and to the memory. -/
theorem Xact.after_cases (s : State) (r : Run) (x : Xact) (l : Lane) (hl : r.lanes[x.lane]? = some l)
    (hf : x.fits r.snap.op.writesY l) :
    (l.a = none ∧ s.memAfter r x = s.mem ∧ x.base r.snap = r.snap.aAddr ∧
      ∀ v, l.after x v = { l with a := some v }) ∨
    (l.b = none ∧ s.memAfter r x = s.mem ∧ x.base r.snap = r.snap.bAddr ∧
      ∀ v, l.after x v = { l with b := some v }) ∨
    (r.snap.op.writesY = true ∧ l.stored = false ∧ x.base r.snap = r.snap.yAddr ∧
      (∀ v, l.after x v = { l with stored := true, before := some v }) ∧
      ∃ a b, l.a = some a ∧ l.b = some b ∧
        s.memAfter r x = Memory.writeSample s.mem (elem r.snap.yAddr (s.processed.toNat + x.lane))
          (axpySample a r.snap.alpha b)) := by
  cases x with
  | readA j => exact .inl ⟨hf, rfl, rfl, fun v => rfl⟩
  | readB j => exact .inr (.inl ⟨hf, rfl, rfl, fun v => rfl⟩)
  | store j =>
    obtain ⟨hw, ha, hb, hst⟩ := hf
    obtain ⟨a, b, ha, hb, hr⟩ := Lane.result_isSome r.snap.alpha l ha hb
    have hj : r.lanes[j]? = some l := hl
    exact .inr (.inr ⟨hw, hst, rfl, fun v => rfl, a, b, ha, hb, by
      simp [State.memAfter, hj, hr, Xact.address_eq_elem, Xact.base, Xact.lane]⟩)

/-- Settles O38: the transaction `transact_ok` gives, its kind by `Xact.after_cases`, and the strip as it is settled. -/
theorem oneTransactionPerStep : Obligations.OneTransactionPerStep := by
  intro op s r hop ⟨hinv, hturn, hrun, hsnap, hlive⟩ hopen hcoherent hplaced hok
  have hmem : r.snap.op.isMemory = true := hsnap ▸ hop.isMemory
  have hlegal : r.Legal s := hinv.running r hrun
  obtain ⟨x, l, hl, hf, hnext⟩ := State.transact_ok hmem hlegal.checked (hlegal.inside hmem)
    (hlegal.unfinished hopen) hcoherent (hplaced r hrun) hok
  refine ⟨x.lane, l, l.after x (Memory.readSample s.mem (x.address r.snap s.processed.toNat)), s.memAfter r x, hl,
    ?_, ?_⟩
  · rw [Xact.address_eq_elem]
    rcases x.after_cases s r l hl hf with ⟨ha, hm, hbase, hv⟩ | ⟨hb, hm, hbase, hv⟩ | ⟨hw, hst, hbase, hv, a, b, ha, hb, hm⟩
    · exact .inl ⟨ha, hm, hbase ▸ hv _⟩
    · exact .inr (.inl ⟨hb, hm, hbase ▸ hv _⟩)
    · exact .inr (.inr ⟨by rintro rfl; simp [hsnap, Instr.writesY] at hw, hst, hbase ▸ hv _, a, b, ha, hb, hm⟩)
  · intro ls u
    have hfinished : ls.all (Lane.finished r.snap.op.writesY) =
        ls.all (fun l => l.a.isSome && l.b.isSome && (decide (op = .compare) || l.stored)) := by
      refine congrArg _ (funext fun l => ?_)
      simp only [Lane.finished, hsnap, hop.not_writesY]
    rw [exec_memory_unit hop s r hturn hrun hsnap hlive, State.stripStep_open _ _ _ _ hopen, hnext,
      State.afterTransaction, r.lanesAfter_eq_set x _ l hl, State.settleStrip, hfinished]
    split
    · simp [State.closeStrip, hsnap, BitVec.ofNat_add, u, ls]
    · rfl

end Sys2Proof.Machine
end

section
/-! PROOFS. How much of a strip is done, and what a strip under way holds, kept by each transaction (R44, R61, R132,
R158, R180). -/

namespace Sys2Proof.Machine

/-! ## How many transactions were made (R61) -/

/-- R61: how many transactions one element takes: the reads of a and b, and the store where the command writes y. -/
def accessesPerElement (writes : Bool) : Nat :=
  if writes then 3 else 2

/-- How many transactions of a lane were made. -/
def Lane.made (l : Lane) : Nat :=
  l.a.isSome.toNat + l.b.isSome.toNat + l.stored.toNat

/-- How many transactions of a strip were made. -/
def lanesMade (ls : List Lane) : Nat :=
  (ls.map Lane.made).sum

/-- R61, R68 item 2: a lane's store follows its reads, and a command that does not write y makes none. -/
structure Lane.Sound (writes : Bool) (l : Lane) : Prop where
  reads_first : l.stored = true → l.a.isSome = true ∧ l.b.isSome = true
  no_store : writes = false → l.stored = false

theorem Lane.sound_fresh (writes : Bool) : Lane.fresh.Sound writes :=
  ⟨fun h => by simp at h, fun _ => rfl⟩

/-- R68 item 2: a lane with a read still to make has stored nothing. -/
theorem Lane.Sound.not_stored {writes : Bool} {l : Lane} (h : l.Sound writes) (hn : l.a = none ∨ l.b = none) :
    l.stored = false := by
  by_contra hs
  obtain ⟨ha, hb⟩ := h.reads_first (by simpa using hs)
  rcases hn with hn | hn
  · simp [hn] at ha
  · simp [hn] at hb

/-- A transaction that fits its lane keeps the lane's order and is one more made. -/
theorem Lane.after_fits {writes : Bool} {x : Xact} {l : Lane} (h : l.Sound writes) (hf : x.fits writes l)
    (v : Sample) : (l.after x v).Sound writes ∧ (l.after x v).made = l.made + 1 := by
  cases x with
  | readA j =>
    have ha : l.a = none := hf
    have hst : l.stored = false := h.not_stored (.inl ha)
    exact ⟨⟨fun hs => by simp [Lane.after, hst] at hs, h.no_store⟩, by
      simp only [Lane.made, Lane.after, ha, Option.isSome_some, Option.isSome_none, Bool.toNat_true, Bool.toNat_false]
      omega⟩
  | readB j =>
    have hb : l.b = none := hf
    have hst : l.stored = false := h.not_stored (.inr hb)
    exact ⟨⟨fun hs => by simp [Lane.after, hst] at hs, h.no_store⟩, by
      simp only [Lane.made, Lane.after, hb, Option.isSome_some, Option.isSome_none, Bool.toNat_true, Bool.toNat_false]
      omega⟩
  | store j =>
    obtain ⟨hw, ha, hb, hst⟩ := hf
    exact ⟨⟨fun _ => ⟨ha, hb⟩, fun hn => by simp [hw] at hn⟩, by simp [Lane.made, Lane.after, hst]⟩

/-- A finished lane has made every transaction of its element, and no other lane has. -/
theorem Lane.made_eq_iff {writes : Bool} {l : Lane} (h : l.Sound writes) :
    l.made ≤ accessesPerElement writes ∧ (l.finished writes = true ↔ l.made = accessesPerElement writes) := by
  obtain ⟨a, b, st, old⟩ := l
  have hno := h.no_store
  cases writes <;> cases st <;> cases a <;> cases b <;>
    simp_all [Lane.made, Lane.finished, accessesPerElement]

/-- A strip has made every transaction of its elements exactly when every lane is finished. -/
theorem lanesMade_eq_iff {writes : Bool} (ls : List Lane) (h : ∀ l ∈ ls, l.Sound writes) :
    lanesMade ls ≤ accessesPerElement writes * ls.length ∧
      (ls.all (Lane.finished writes) = true ↔ lanesMade ls = accessesPerElement writes * ls.length) := by
  induction ls with
  | nil => simp [lanesMade]
  | cons l ls ih =>
    obtain ⟨hle, hiff⟩ := ih fun l' hl' => h l' (by simp [hl'])
    obtain ⟨hle', hiff'⟩ := Lane.made_eq_iff (h l (by simp))
    have hsum : lanesMade (l :: ls) = l.made + lanesMade ls := by simp [lanesMade]
    rw [hsum, List.length_cons, Nat.mul_succ, List.all_cons, Bool.and_eq_true, hiff, hiff']
    omega

theorem lanesMade_replicate_fresh (c : Nat) : lanesMade (List.replicate c Lane.fresh) = 0 := by
  simp [lanesMade, Lane.made]

/-- One more transaction of one lane is one more of the strip. -/
theorem lanesMade_set (ls : List Lane) (j : Nat) (l l' : Lane) (h : ls[j]? = some l) (hm : l'.made = l.made + 1) :
    lanesMade (ls.set j l') = lanesMade ls + 1 := by
  induction ls generalizing j with
  | nil => simp at h
  | cons l₀ ls ih =>
    cases j with
    | zero =>
      obtain rfl : l₀ = l := by simpa using h
      simp only [lanesMade, List.set_cons_zero, List.map_cons, List.sum_cons, hm]
      omega
    | succ j =>
      have hrec := ih j (by simpa using h)
      simp only [lanesMade, List.set_cons_succ, List.map_cons, List.sum_cons] at hrec ⊢
      omega

/-! ## What a transaction leaves of y -/

/-- The result of a completed strip's run: no strip is open, and COMPARE's report has taken the lanes in (R180). -/
def Run.closed (r : Run) : Run :=
  { r with
    lanes := []
    eq := if r.snap.op = .compare then (laneReport r.lanes r.eq r.md).1 else r.eq
    md := if r.snap.op = .compare then (laneReport r.lanes r.eq r.md).2 else r.md }

theorem State.closeStrip_eq (s : State) (r : Run) :
    s.closeStrip r = { s with
      processed := BitVec.ofNat 32 (s.processed.toNat + r.lanes.length), run := some r.closed } :=
  rfl

/-- R157: PROCESSED grows by the chunk, with no wrap where the strip lies inside the buffers. -/
theorem State.closeStrip_processed (s : State) (r : Run) (k : Word)
    (h : s.processed.toNat + r.lanes.length ≤ k.toNat) :
    (s.closeStrip r).processed.toNat = s.processed.toNat + r.lanes.length := by
  have := k.isLt
  rw [State.closeStrip_eq, BitVec.toNat_ofNat, Nat.mod_eq_of_lt (by omega)]

/-- A lane of a strip after a transaction is the transaction's own, or one it did not touch. -/
theorem Run.lanesAfter_getElem? {r : Run} {x : Xact} {l : Lane} (hl : r.lanes[x.lane]? = some l) (v : Sample)
    (j : Nat) (l' : Lane) (h : (r.lanesAfter x v)[j]? = some l') :
    (j = x.lane ∧ l' = l.after x v) ∨ (j ≠ x.lane ∧ r.lanes[j]? = some l') := by
  rw [r.lanesAfter_eq_set x v l hl, List.getElem?_set] at h
  split at h
  · next hj =>
    split at h
    · exact .inl ⟨hj.symm, by simpa using h.symm⟩
    · cases h
  · next hj => exact .inr ⟨Ne.symm hj, h⟩

theorem Run.lanesAfter_length (r : Run) (x : Xact) (v : Sample) : (r.lanesAfter x v).length = r.lanes.length := by
  simp [Run.lanesAfter]

/-- R132, R158: a transaction changes no byte but those of its own element of y. -/
theorem State.memAfter_readByte (s : State) (r : Run) (x : Xact) (hwf : Memory.wf s.mem) (a : Nat)
    (ha : a ≠ elem r.snap.yAddr (s.processed.toNat + x.lane) ∧ a ≠ elem r.snap.yAddr (s.processed.toNat + x.lane) + 1) :
    Memory.readByte (s.memAfter r x) a = Memory.readByte s.mem a := by
  cases x with
  | readA j => rfl
  | readB j => rfl
  | store j =>
    simp only [State.memAfter]
    split
    · exact Memory.readByte_writeSample_other _ hwf _ _ _ ha
    · rfl

theorem State.memAfter_wf (s : State) (r : Run) (x : Xact) (hwf : Memory.wf s.mem) : Memory.wf (s.memAfter r x) := by
  cases x with
  | readA j => exact hwf
  | readB j => exact hwf
  | store j =>
    simp only [State.memAfter]
    split
    · exact Memory.writeSample_wf _ hwf _ _
    · exact hwf

/-- A transaction leaves every other element of y as it was. -/
theorem State.memAfter_other (s : State) (r : Run) (x : Xact) (hwf : Memory.wf s.mem) (i : Nat)
    (hi : i ≠ s.processed.toNat + x.lane) :
    Memory.readSample (s.memAfter r x) (elem r.snap.yAddr i) = Memory.readSample s.mem (elem r.snap.yAddr i) := by
  apply Memory.readSample_congr <;> apply s.memAfter_readByte r x hwf <;> simp only [elem] <;> omega

/-! ## An AXPY command under way (R132, R158) -/

theorem IsAxpy.writesY {op : Instr} (h : IsAxpy op) : op.writesY = true := by
  rcases h with rfl | rfl <;> rfl

theorem IsAxpy.isMemory {op : Instr} (h : IsAxpy op) : op.isMemory = true := by
  rcases h with rfl | rfl <;> rfl

/-- R206: a command that writes y and passed its checks has y exactly at an input, or apart from it. -/
theorem Snapshot.y_apart (k : Snapshot) (hop : IsAxpy k.op) (hn : 0 < k.n.toNat) (h : k.issueError = none) (b : Word)
    (hb : b = k.aAddr ∨ b = k.bAddr) :
    b = k.yAddr ∨ b.toNat + k.bytes ≤ k.yAddr.toNat ∨ k.yAddr.toNat + k.bytes ≤ b.toNat := by
  obtain ⟨-, -, ho⟩ := k.checks_of_issueError hop.isMemory hn h
  have hpartial : partialOverlap k.yAddr.toNat b.toNat k.bytes = false := by
    rcases hb with rfl | rfl <;> simp_all [Snapshot.overlapError, hop.writesY]
  have heq : k.yAddr.toNat = b.toNat → b = k.yAddr := fun e => BitVec.eq_of_toNat_eq e.symm
  simp only [partialOverlap, Bool.and_eq_false_iff, decide_eq_false_iff_not, ne_eq, not_not] at hpartial
  rcases hpartial with (h | h) | h
  · exact .inr (.inl (by omega))
  · exact .inr (.inr (by omega))
  · exact .inl (heq h)

/-- R132: while element i of y is old, so is element i of either input, in place or not. -/
theorem input_kept {m : Memory} {k : Snapshot} {s : State} (hop : IsAxpy k.op) (h : k.issueError = none) (b : Word)
    (hb : b = k.aAddr ∨ b = k.bAddr) (i : Nat) (hi : i < k.n.toNat) (hold : yOld m k s i)
    (hout : OutsideYKept m k s) : Memory.readSample s.mem (elem b i) = Memory.readSample m (elem b i) := by
  rcases k.y_apart hop (by omega) h b hb with rfl | hapart
  · exact hold
  · have houtside : ∀ a, elem b i ≤ a → a ≤ elem b i + 1 → Memory.readByte s.mem a = Memory.readByte m a := by
      intro a h1 h2
      refine hout a fun hin => ?_
      simp only [inBuffer, Snapshot.bytes, elem] at *
      omega
    exact Memory.readSample_congr _ _ _ (houtside _ (by omega) (by omega)) (houtside _ (by omega) (by omega))

/-- What a lane holds rests on its own element of y, PROCESSED and the snapshot alone. -/
theorem LaneProgress.congr {m : Memory} {s u : State} {r r' : Run} {j : Nat} {l : Lane} (h : LaneProgress m s r j l)
    (hp : u.processed = s.processed) (hk : r'.snap = r.snap)
    (hy : Memory.readSample u.mem (elem r.snap.yAddr (s.processed.toNat + j)) =
      Memory.readSample s.mem (elem r.snap.yAddr (s.processed.toNat + j))) : LaneProgress m u r' j l := by
  obtain ⟨ha, hb, hst, hbefore, hun⟩ := h
  constructor <;> simp only [yNew, yOld, hp, hk, hy] at * <;> assumption

/-- A run under way rests on the memory and PROCESSED alone. -/
theorem AxpyProgress.congr {m : Memory} {s u : State} {r : Run} (h : AxpyProgress m s r) (hm : u.mem = s.mem)
    (hp : u.processed = s.processed) : AxpyProgress m u r := by
  obtain ⟨hcompleted, hlanes, hahead, hout⟩ := h
  refine ⟨?_, fun j l hl => (hlanes j l hl).congr hp rfl (by rw [hm]), ?_, ?_⟩
  all_goals simp only [yNew, yOld, OutsideYKept, hm, hp] at *; assumption

/-- R132, R158: what a transaction makes of its own lane. -/
theorem LaneProgress.transaction {m : Memory} {s : State} {r : Run} {x : Xact} {l : Lane} (h : AxpyProgress m s r)
    (hop : IsAxpy r.snap.op) (hchecked : r.snap.issueError = none) (hwf : Memory.wf s.mem)
    (hinside : s.processed.toNat + r.lanes.length ≤ r.snap.n.toNat) (hl : r.lanes[x.lane]? = some l)
    (hsound : l.Sound r.snap.op.writesY) (hf : x.fits r.snap.op.writesY l) (u : State) (r' : Run)
    (hm : u.mem = s.memAfter r x) (hp : u.processed = s.processed) (hk : r'.snap = r.snap) :
    LaneProgress m u r' x.lane (l.after x (Memory.readSample s.mem (x.address r.snap s.processed.toNat))) := by
  have hlane : x.lane < r.lanes.length := (List.getElem?_eq_some_iff.mp hl).1
  have hown := h.lanes x.lane l hl
  have hinput : l.stored = false → ∀ b, b = r.snap.aAddr ∨ b = r.snap.bAddr →
      Memory.readSample s.mem (elem b (s.processed.toNat + x.lane)) =
        Memory.readSample m (elem b (s.processed.toNat + x.lane)) := fun hst b hb =>
    input_kept hop hchecked b hb _ (by omega) (hown.unstored hst) h.outside
  rw [Xact.address_eq_elem]
  rcases x.after_cases s r l hl hf with ⟨ha, hsame, hbase, hv⟩ | ⟨hb, hsame, hbase, hv⟩ |
    ⟨hw, hst, hbase, hv, a, b, ha, hb, hstore⟩
  · obtain ⟨-, hbold, hstored, hbefore, hun⟩ := hown.congr (u := u) hp hk (by rw [hm, hsame])
    rw [hv, hbase, hinput (hsound.not_stored (.inl ha)) _ (.inl rfl), ← hk, ← hp]
    exact ⟨fun v hv => (Option.some.inj hv).symm, hbold, hstored, hbefore, hun⟩
  · obtain ⟨haold, -, hstored, hbefore, hun⟩ := hown.congr (u := u) hp hk (by rw [hm, hsame])
    rw [hv, hbase, hinput (hsound.not_stored (.inr hb)) _ (.inr rfl), ← hk, ← hp]
    exact ⟨haold, fun v hv => (Option.some.inj hv).symm, hstored, hbefore, hun⟩
  · have hnew : yNew m r'.snap u (u.processed.toNat + x.lane) := by
      rw [yNew, hm, hk, hp, hstore, Memory.readSample_writeSample _ hwf _ _
        (r.snap.holds_elem hop.isMemory hchecked _ (r.snap.yAddr_mem_bases hw) _ (by omega)),
        hown.a a ha, hown.b b hb, axpyElement]
    rw [hv, hbase, hown.unstored hst, ← hk, ← hp]
    refine ⟨?_, ?_, fun _ => hnew, fun v hv => (Option.some.inj hv).symm, fun hn => by cases hn⟩
    · rw [hk, hp]
      exact hown.a
    · rw [hk, hp]
      exact hown.b

/-- R132, R158: a transaction of the open strip keeps an AXPY command under way. -/
theorem AxpyProgress.transaction {m : Memory} {s : State} {r : Run} {x : Xact} {l : Lane} (h : AxpyProgress m s r)
    (hop : IsAxpy r.snap.op) (hchecked : r.snap.issueError = none) (hwf : Memory.wf s.mem)
    (hinside : s.processed.toNat + r.lanes.length ≤ r.snap.n.toNat) (hl : r.lanes[x.lane]? = some l)
    (hsound : l.Sound r.snap.op.writesY) (hf : x.fits r.snap.op.writesY l) (u : State)
    (hm : u.mem = s.memAfter r x) (hp : u.processed = s.processed) :
    AxpyProgress m u
      { r with lanes := r.lanesAfter x (Memory.readSample s.mem (x.address r.snap s.processed.toNat)) } := by
  have hlane : x.lane < r.lanes.length := (List.getElem?_eq_some_iff.mp hl).1
  have hother : ∀ i, i ≠ s.processed.toNat + x.lane →
      Memory.readSample u.mem (elem r.snap.yAddr i) = Memory.readSample s.mem (elem r.snap.yAddr i) := fun i hi =>
    hm ▸ s.memAfter_other r x hwf i hi
  refine ⟨fun i hi => ?_, fun j l' hl' => ?_, fun i hi hn => ?_, fun a ha => ?_⟩
  · rw [hp] at hi
    exact (hother i (by omega)).trans (h.completed i hi)
  · rcases Run.lanesAfter_getElem? hl _ j l' hl' with ⟨rfl, rfl⟩ | ⟨hj, hl'⟩
    · exact LaneProgress.transaction h hop hchecked hwf hinside hl hsound hf u _ hm hp rfl
    · exact (h.lanes j l' hl').congr hp rfl (hother _ (by omega))
  · rw [hp, Run.lanesAfter_length] at hi
    exact (hother i (by omega)).trans (h.ahead i hi hn)
  · rw [hm, s.memAfter_readByte r x hwf a ?_]
    · exact h.outside a ha
    · simp only [inBuffer, Snapshot.bytes, elem] at *
      omega

/-- R157: closing a finished strip counts its elements as completed. -/
theorem AxpyProgress.closeStrip {m : Memory} {s : State} {r : Run} (h : AxpyProgress m s r)
    (hop : IsAxpy r.snap.op) (hinside : s.processed.toNat + r.lanes.length ≤ r.snap.n.toNat)
    (hfinished : r.lanes.all (Lane.finished r.snap.op.writesY) = true) :
    AxpyProgress m (s.closeStrip r) r.closed := by
  have hp := s.closeStrip_processed r _ hinside
  refine ⟨fun i hi => ?_, fun j l hl => by simp [Run.closed] at hl, fun i hi hn => ?_, h.outside⟩
  · rw [hp] at hi
    by_cases hlow : i < s.processed.toNat
    · exact h.completed i hlow
    · obtain ⟨j, rfl⟩ := Nat.exists_eq_add_of_le (Nat.le_of_not_lt hlow)
      have hj : j < r.lanes.length := by omega
      have hstored : (r.lanes[j]).stored = true := by
        have := List.all_eq_true.mp hfinished _ (List.getElem_mem hj)
        simp_all [Lane.finished, hop.writesY]
      exact (h.lanes j _ (List.getElem?_eq_getElem hj)).stored hstored
  · rw [hp] at hi
    exact h.ahead i hi hn

/-- A strip just opened has read and stored nothing. -/
theorem AxpyProgress.openStrip {m : Memory} {s : State} {r : Run} (h : AxpyProgress m s r) (hl : r.lanes = [])
    (c : Nat) (hinside : s.processed.toNat + c ≤ r.snap.n.toNat) : AxpyProgress m s (r.openStrip c) := by
  refine ⟨h.completed, fun j l hj => ?_, fun i hi hn => ?_, h.outside⟩
  · obtain ⟨hj, rfl⟩ : j < c ∧ Lane.fresh = l := by
      simpa [List.getElem?_replicate] using hj
    have hold : yOld m r.snap s (s.processed.toNat + j) := h.ahead _ (by simp [hl]) (by omega)
    constructor <;> simp [hold]
  · rw [Run.openStrip_lanes, List.length_replicate] at hi
    exact h.ahead i (by rw [hl, List.length_nil]; omega) hn

/-! ## A COMPARE under way (R180) -/

theorem allEqual_succ (m : Memory) (k : Snapshot) (p : Nat) :
    allEqual m k (p + 1) ↔ allEqual m k p ∧
      Memory.readSample m (elem k.aAddr p) = Memory.readSample m (elem k.bAddr p) :=
  Nat.forall_lt_succ_right

/-- R116: the distance of two samples is at most 65535, and 0 exactly when they are equal. -/
theorem absdiff_bound (a b : Sample) : absdiff a b ≤ 65535 ∧ (absdiff a b = 0 ↔ a = b) := by
  have ha := BitVec.toInt_lt (x := a)
  have ha' := BitVec.le_toInt (x := a)
  have hb := BitVec.toInt_lt (x := b)
  have hb' := BitVec.le_toInt (x := b)
  rw [← BitVec.toInt_inj]
  simp only [absdiff, s16] at *
  omega

/-- R182, R184: the largest distance is at most 65535, and 0 exactly when all elements are equal. -/
theorem maxDistance_bound (m : Memory) (k : Snapshot) (p : Nat) :
    maxDistance m k p ≤ 65535 ∧ (maxDistance m k p = 0 ↔ allEqual m k p) := by
  induction p with
  | zero => simp [maxDistance, allEqual]
  | succ p ih =>
    obtain ⟨hle, hiff⟩ := ih
    obtain ⟨hle', hiff'⟩ :=
      absdiff_bound (Memory.readSample m (elem k.aAddr p)) (Memory.readSample m (elem k.bAddr p))
    rw [allEqual_succ, ← hiff, ← hiff', maxDistance]
    omega

/-- R180: the report over a strip whose lanes hold the samples of m takes the report over the elements before it on to
its end. -/
theorem laneReport_eq (m : Memory) (k : Snapshot) (ls : List Lane) (p : Nat) (eq : Bool) (md : Nat)
    (hlanes : ∀ j l, ls[j]? = some l → l.a = some (Memory.readSample m (elem k.aAddr (p + j))) ∧
      l.b = some (Memory.readSample m (elem k.bAddr (p + j))))
    (heq : eq = true ↔ allEqual m k p) (hmd : md = maxDistance m k p) :
    ((laneReport ls eq md).1 = true ↔ allEqual m k (p + ls.length)) ∧
      (laneReport ls eq md).2 = maxDistance m k (p + ls.length) := by
  induction ls generalizing p eq md with
  | nil => exact ⟨heq, hmd⟩
  | cons l ls ih =>
    obtain ⟨ha, hb⟩ := hlanes 0 l rfl
    rw [List.length_cons, Nat.add_comm ls.length, ← Nat.add_assoc]
    simp only [laneReport, ha, hb]
    refine ih (p + 1) _ _ (fun j l' hl' => ?_) ?_ ?_
    · rw [Nat.add_assoc, Nat.add_comm 1]
      exact hlanes (j + 1) l' hl'
    · simp [allEqual_succ, heq]
    · simp [maxDistance, hmd]

theorem CompareProgress.congr {m : Memory} {s u : State} {r : Run} (h : CompareProgress m s r) (hm : u.mem = s.mem)
    (hp : u.processed = s.processed) : CompareProgress m u r := by
  obtain ⟨hmem, ha, hb, heq, hmd⟩ := h
  constructor <;> simp only [hm, hp] at * <;> assumption

/-- R180: the samples a lane has read are those of element i of a and of b in the memory m. -/
def Lane.Reads (m : Memory) (k : Snapshot) (i : Nat) (l : Lane) : Prop :=
  (∀ v, l.a = some v → v = Memory.readSample m (elem k.aAddr i)) ∧
    ∀ v, l.b = some v → v = Memory.readSample m (elem k.bAddr i)

/-- A transaction that takes its sample from m keeps the lane's samples those of m. -/
theorem Lane.Reads.after {m : Memory} {k : Snapshot} {i : Nat} {l : Lane} (h : l.Reads m k i) (x : Xact) :
    (l.after x (Memory.readSample m (elem (x.base k) i))).Reads m k i := by
  cases x with
  | readA j => exact ⟨fun v hv => (Option.some.inj hv).symm, h.2⟩
  | readB j => exact ⟨h.1, fun v hv => (Option.some.inj hv).symm⟩
  | store j => exact h

/-- A command that writes no y leaves the memory alone. -/
theorem State.memAfter_of_not_writesY (s : State) (r : Run) (x : Xact) (l : Lane)
    (hw : r.snap.op.writesY = false) (hf : x.fits r.snap.op.writesY l) : s.memAfter r x = s.mem := by
  cases x with
  | readA j => rfl
  | readB j => rfl
  | store j => exact absurd (hw.symm.trans hf.1) (by decide)

/-- R180: a read of the open strip keeps a COMPARE under way. -/
theorem CompareProgress.transaction {m : Memory} {s : State} {r : Run} {x : Xact} {l : Lane}
    (h : CompareProgress m s r) (hop : r.snap.op = .compare) (hl : r.lanes[x.lane]? = some l)
    (hf : x.fits r.snap.op.writesY l) (u : State) (hm : u.mem = s.memAfter r x) (hp : u.processed = s.processed) :
    CompareProgress m u
      { r with lanes := r.lanesAfter x (Memory.readSample s.mem (x.address r.snap s.processed.toNat)) } := by
  obtain ⟨hmem, ha, hb, heq, hmd⟩ := h
  have hreads : ∀ (j : Nat) (l' : Lane),
      (r.lanesAfter x (Memory.readSample s.mem (x.address r.snap s.processed.toNat)))[j]? = some l' →
      l'.Reads m r.snap (u.processed.toNat + j) := by
    intro j l' hl'
    rw [hp]
    rcases Run.lanesAfter_getElem? hl _ j l' hl' with ⟨rfl, rfl⟩ | ⟨-, hl'⟩
    · rw [hmem, Xact.address_eq_elem]
      exact Lane.Reads.after ⟨fun v => ha _ l v hl, fun v => hb _ l v hl⟩ x
    · exact ⟨fun v => ha j l' v hl', fun v => hb j l' v hl'⟩
  exact ⟨(hm.trans (s.memAfter_of_not_writesY r x l (by rw [hop]; rfl) hf)).trans hmem,
    fun j l' v hl' => (hreads j l' hl').1 v, fun j l' v hl' => (hreads j l' hl').2 v, hp ▸ heq, hp ▸ hmd⟩

/-- R157, R180: closing a finished strip takes its lanes into the report. -/
theorem CompareProgress.closeStrip {m : Memory} {s : State} {r : Run} (h : CompareProgress m s r)
    (hop : r.snap.op = .compare) (hinside : s.processed.toNat + r.lanes.length ≤ r.snap.n.toNat)
    (hfinished : r.lanes.all (Lane.finished r.snap.op.writesY) = true) :
    CompareProgress m (s.closeStrip r) r.closed := by
  have hread : ∀ j l, r.lanes[j]? = some l →
      l.a = some (Memory.readSample m (elem r.snap.aAddr (s.processed.toNat + j))) ∧
      l.b = some (Memory.readSample m (elem r.snap.bAddr (s.processed.toNat + j))) := by
    intro j l hl
    have hdone := List.all_eq_true.mp hfinished l (List.mem_of_getElem? hl)
    simp only [Lane.finished, Bool.and_eq_true] at hdone
    obtain ⟨⟨hda, hdb⟩, -⟩ := hdone
    obtain ⟨a, hla⟩ := Option.isSome_iff_exists.mp hda
    obtain ⟨b, hlb⟩ := Option.isSome_iff_exists.mp hdb
    exact ⟨h.a j l a hl hla ▸ hla, h.b j l b hl hlb ▸ hlb⟩
  obtain ⟨heq, hmd⟩ := laneReport_eq m r.snap r.lanes s.processed.toNat r.eq r.md hread h.eq h.md
  rw [← s.closeStrip_processed r _ hinside] at heq hmd
  exact ⟨h.mem, fun j l v hl => by simp [Run.closed] at hl, fun j l v hl => by simp [Run.closed] at hl,
    by simpa [Run.closed, hop] using heq, by simpa [Run.closed, hop] using hmd⟩

theorem CompareProgress.openStrip {m : Memory} {s : State} {r : Run} (h : CompareProgress m s r) (c : Nat) :
    CompareProgress m s (r.openStrip c) := by
  have hfresh : ∀ j l, (r.openStrip c).lanes[j]? = some l → l = Lane.fresh := fun j l hl =>
    List.eq_of_mem_replicate (List.mem_of_getElem? hl)
  exact ⟨h.mem, fun j l v hl hv => by simp [hfresh j l hl] at hv, fun j l v hl hv => by simp [hfresh j l hl] at hv,
    h.eq, h.md⟩

end Sys2Proof.Machine
end

section
/-! PROOFS. Whole memory commands on a platform that answers complete, after as many own steps as they make transactions
and take CAPIN answers, and one for the completion (R130, R150, R183, R251). -/

namespace Sys2Proof.Machine

/-! ## Feeds -/

theorem Feed.advance_iterate {α : Type} (f : Feed α) (k : Nat) :
    (Feed.advance^[k] f) = { f with listed := f.listed.drop k } := by
  induction k with
  | zero => rfl
  | succ k ih =>
    rw [Function.iterate_succ_apply', ih]
    simp [Feed.advance]

/-- A feed that always gives one value goes on doing so. -/
theorem Feed.now_iterate_of_always {α : Type} {f : Feed α} {v : α} (h : f.Always v) (k : Nat) (free : α) :
    (Feed.advance^[k] f).now free = v := by
  rw [Feed.advance_iterate]
  exact Feed.Always_now _ v free (fun x hx => h.1 x (List.mem_of_mem_drop hx)) h.2

/-- R151, R161: every answer of a CAPIN that gives answers of a target of this unit lies in [1, VLMAX]. -/
theorem Feed.now_iterate_of_capinLegal {s : State} (h : s.CapinLegal) (k free : Nat)
    (hfree : 1 ≤ free ∧ free ≤ s.target.vlmax) :
    1 ≤ (Feed.advance^[k] s.capin).now free ∧ (Feed.advance^[k] s.capin).now free ≤ s.target.vlmax := by
  rw [Feed.advance_iterate]
  unfold Feed.now
  split
  · next w ws hw =>
    have hdrop : s.capin.listed.drop k = w :: ws := hw
    exact h.1 w (List.mem_of_mem_drop (hdrop ▸ List.mem_cons_self))
  · split
    · next w hw => exact h.2 w hw
    · exact hfree

theorem Target.vlmax_pos {t : Target} (h : t.wf = true) : 1 ≤ t.vlmax := by
  simp only [Target.wf, Target.vlmaxInRange, Bool.and_eq_true, decide_eq_true_eq] at h
  obtain ⟨⟨⟨hlow, -⟩, -⟩, -⟩ := h
  exact hlow

/-! ## What a whole command has taken so far -/

theorem Took.transaction {s t u : State} {x c : Nat} (h : Took s t x c) (hd : u.drawn = t.drawn + 2)
    (hch : u.choices = t.choices.advance) (hr : u.responses = t.responses.advance) (hc : u.capin = t.capin) :
    Took s u (x + 1) c :=
  ⟨by rw [hd, h.drawn]; omega, by rw [hch, h.choices, Function.iterate_succ_apply'],
    by rw [hr, h.responses, Function.iterate_succ_apply'], hc.trans h.capin⟩

theorem Took.chunk {s t u : State} {x c : Nat} (h : Took s t x c) (hd : u.drawn = t.drawn + 1)
    (hch : u.choices = t.choices) (hr : u.responses = t.responses) (hc : u.capin = t.capin.advance) :
    Took s u x (c + 1) :=
  ⟨by rw [hd, h.drawn]; omega, hch.trans h.choices, hr.trans h.responses,
    by rw [hc, h.capin, Function.iterate_succ_apply']⟩

/-- The completion takes nothing (R201). -/
theorem Took.finishMemory {s t : State} {x c : Nat} (h : Took s t x c) (op : Instr) (r : Run) :
    Took s (t.finishMemory op r) x c := by
  unfold State.finishMemory
  split <;> exact ⟨h.drawn, h.choices, h.responses, h.capin⟩

/-! ## A whole command under way -/

/-- R132, R158, R180: how far a memory command has come that was accepted with the memory m. -/
def MemoryProgress (m : Memory) (s : State) (r : Run) : Prop :=
  (IsAxpy r.snap.op → AxpyProgress m s r) ∧ (r.snap.op = .compare → CompareProgress m s r)

/-- How far the command `op`, issued in s₀, has come in s with the strip state r: it has made x transactions and taken c
CAPIN answers, and the elements completed and in the open strip account for both. -/
structure Reached (op : Instr) (s₀ : State) (x c : Nat) (s : State) (r : Run) : Prop where
  snap : r.snap = capture op s₀
  live : r.hung = false
  turn : s.turn = .unit
  target : s.target = s₀.target
  status : s.status = s₀.status.accepted
  memory : Memory.wf s.mem
  took : Took s₀ s x c
  inside : s.processed.toNat + r.lanes.length ≤ s₀.n.toNat
  sound : ∀ l ∈ r.lanes, l.Sound op.writesY
  made : x = accessesPerElement op.writesY * s.processed.toNat + lanesMade r.lanes
  answers_le : c ≤ s.processed.toNat + r.lanes.length
  answers_ge : takesCapin op s₀.target = true → s.processed.toNat + r.lanes.length ≤ c * s₀.target.vlmax
  scalar : takesCapin op s₀.target = false → c = 0
  progress : MemoryProgress s₀.mem s r

/-- The unit runs the command `op`, issued in s₀, after x transactions and c CAPIN answers; a strip that is open has
something left to do. -/
def Underway (op : Instr) (s₀ : State) (x c : Nat) (s : State) : Prop :=
  ∃ r, s.run = some r ∧ Reached op s₀ x c s r ∧ (r.lanes ≠ [] → r.lanes.all (Lane.finished op.writesY) = false)

/-- What a memory command needs to complete (R74, R151, R207): it is ready, every transaction is answered, and CAPIN
answers in [1, VLMAX] where the command asks it. -/
structure Completes (op : Instr) (s₀ : State) : Prop where
  memory : IsMemoryCommand op
  ready : Ready op s₀
  serves : s₀.Serves
  capin : takesCapin op s₀.target = true → s₀.CapinLegal

/-- How far a command has come does not rest on the strip the state itself holds. -/
theorem Reached.withRun {op : Instr} {s₀ s : State} {x c : Nat} {r : Run} (h : Reached op s₀ x c s r)
    (q : Option Run) : Reached op s₀ x c { s with run := q } r :=
  { h with
    took := ⟨h.took.drawn, h.took.choices, h.took.responses, h.took.capin⟩
    progress := ⟨fun ha => (h.progress.1 ha).congr rfl rfl, fun hc => (h.progress.2 hc).congr rfl rfl⟩ }

/-- The state in which a memory command's own steps begin: the host's issue was accepted, and it is the unit's turn. -/
def afterIssue (op : Instr) (s : State) : State :=
  { { s with turn := .host }.accept (capture op s) with turn := .unit }

/-- R200: a whole command that is ready is its own steps from there. -/
theorem wholeCommand_eq {op : Instr} {s : State} (hop : IsMemoryCommand op) (h : Ready op s) (k : Nat) :
    wholeCommand op k s = execTimes op k (afterIssue op s) := by
  have hne : op ≠ .nop := by rcases hop with rfl | rfl | rfl <;> decide
  have hissue : exec op { s with turn := .host } = .next ({ s with turn := .host }.accept (capture op s)) := by
    rw [exec_host op hne _ rfl]
    rcases { s with turn := .host }.issue_cases op with ⟨hb, -⟩ | ⟨-, code, addr, he, -⟩ | ⟨-, -, -, hi⟩ | ⟨-, -, ho, -⟩
    · exact absurd (hb.symm.trans h.idle) (by decide)
    · exact absurd (he.symm.trans h.checks) (by simp)
    · exact hi
    · exact absurd (ho.symm.trans h.placed) (by decide)
  simp only [wholeCommand, hissue]
  rfl

theorem afterIssue_processed {op : Instr} (hop : IsMemoryCommand op) (s : State) :
    (afterIssue op s).processed.toNat = 0 := by
  simp [afterIssue, capture, hop.isMemory]

theorem MemoryProgress.start {op : Instr} (hop : IsMemoryCommand op) (s : State) :
    MemoryProgress s.mem (afterIssue op s) (Run.start (capture op s)) := by
  have hp := afterIssue_processed hop s
  refine ⟨fun _ => ⟨fun i hi => ?_, fun j l hl => by simp at hl, fun i _ _ => rfl, fun a _ => rfl⟩,
    fun _ => ⟨rfl, fun j l v hl => by simp at hl, fun j l v hl => by simp at hl, ?_, ?_⟩⟩
  · omega
  · rw [hp]
    simp [allEqual]
  · rw [hp]
    rfl

/-- R200: acceptance is where a whole command begins. -/
theorem Reached.start {op : Instr} {s₀ : State} (hs : Completes op s₀) :
    Reached op s₀ 0 0 (afterIssue op s₀) (Run.start (capture op s₀)) where
  snap := rfl
  live := rfl
  turn := rfl
  target := rfl
  status := rfl
  memory := hs.ready.inv.memory
  took := ⟨rfl, rfl, rfl, rfl⟩
  inside := by simp [afterIssue_processed hs.memory]
  sound := by simp
  made := by simp [afterIssue_processed hs.memory, lanesMade]
  answers_le := Nat.zero_le _
  answers_ge := by simp [afterIssue_processed hs.memory]
  scalar _ := rfl
  progress := MemoryProgress.start hs.memory s₀

/-- A strip of w fresh lanes, opened after c' CAPIN answers: all but these answers is as it was. -/
theorem Reached.openStrip {op : Instr} {s₀ s : State} {x c c' w : Nat} {r : Run} (h : Reached op s₀ x c s r)
    (hl : r.lanes = []) (hw : s.processed.toNat + w ≤ s₀.n.toNat) (q : Option Run) (f : Feed Nat) (d : Nat)
    (htook : Took s₀ { s with capin := f, drawn := d, run := q } x c') (hle : c' ≤ s.processed.toNat + w)
    (hge : takesCapin op s₀.target = true → s.processed.toNat + w ≤ c' * s₀.target.vlmax)
    (hscalar : takesCapin op s₀.target = false → c' = 0) :
    Reached op s₀ x c' { s with capin := f, drawn := d, run := q } (r.openStrip w) where
  snap := h.snap
  live := h.live
  turn := h.turn
  target := h.target
  status := h.status
  memory := h.memory
  took := htook
  inside := by simpa using hw
  sound := fun l hmem => List.eq_of_mem_replicate hmem ▸ Lane.sound_fresh _
  made := by
    have hmade := h.made
    rw [hl] at hmade
    rw [Run.openStrip_lanes, lanesMade_replicate_fresh]
    exact hmade
  answers_le := by simpa using hle
  answers_ge := by simpa using hge
  scalar := hscalar
  progress := by
    have hw' : s.processed.toNat + w ≤ r.snap.n.toNat := by
      rw [h.snap]
      exact hw
    exact ⟨fun ha => ((h.progress.1 ha).openStrip hl w hw').congr rfl rfl,
      fun hc => ((h.progress.2 hc).openStrip w).congr rfl rfl⟩

/-- A transaction of the open strip is one more made. -/
theorem Reached.transaction {op : Instr} {s₀ s : State} {x c : Nat} {r : Run} (hs : Completes op s₀)
    (h : Reached op s₀ x c s r) (y : Xact) (l : Lane) (hl : r.lanes[y.lane]? = some l)
    (hf : y.fits op.writesY l) :
    Reached op s₀ (x + 1) c
      { s with
        mem := s.memAfter r y
        choices := s.choices.advance
        responses := s.responses.advance
        drawn := s.drawn + 2 }
      { r with lanes := r.lanesAfter y (Memory.readSample s.mem (y.address r.snap s.processed.toNat)) } := by
  have hop : r.snap.op = op := by rw [h.snap]; rfl
  have hl' := h.sound l (List.mem_of_getElem? hl)
  have hafter := Lane.after_fits hl' hf (Memory.readSample s.mem (y.address r.snap s.processed.toNat))
  have hset := r.lanesAfter_eq_set y (Memory.readSample s.mem (y.address r.snap s.processed.toNat)) l hl
  have hlen := r.lanesAfter_length y (Memory.readSample s.mem (y.address r.snap s.processed.toNat))
  exact {
    snap := h.snap
    live := h.live
    turn := h.turn
    target := h.target
    status := h.status
    memory := s.memAfter_wf r y h.memory
    took := h.took.transaction rfl rfl rfl rfl
    inside := hlen ▸ h.inside
    sound := by
      intro l'' hmem
      rw [hset] at hmem
      rcases List.mem_or_eq_of_mem_set hmem with hmem | rfl
      · exact h.sound l'' hmem
      · exact hafter.1
    made := by
      have := h.made
      rw [hset, lanesMade_set _ _ _ _ hl hafter.2]
      simp only
      omega
    answers_le := hlen ▸ h.answers_le
    answers_ge := hlen ▸ h.answers_ge
    scalar := h.scalar
    progress := by
      have hchecked : r.snap.issueError = none := h.snap ▸ hs.ready.checks
      have hinside : s.processed.toNat + r.lanes.length ≤ r.snap.n.toNat := by rw [h.snap]; exact h.inside
      refine ⟨fun ha => (h.progress.1 ha).transaction ha hchecked h.memory hinside hl ?_ ?_ _ rfl rfl,
        fun hc => (h.progress.2 hc).transaction hc hl ?_ _ rfl rfl⟩
      all_goals rw [hop]; assumption }

/-- R157: closing a finished strip counts its elements as completed. -/
theorem Reached.closeStrip {op : Instr} {s₀ s : State} {x c : Nat} {r : Run} (h : Reached op s₀ x c s r)
    (hfinished : r.lanes.all (Lane.finished op.writesY) = true) : Reached op s₀ x c (s.closeStrip r) r.closed := by
  have hop : r.snap.op = op := by rw [h.snap]; rfl
  have hp := s.closeStrip_processed r _ h.inside
  have hinside : s.processed.toNat + r.lanes.length ≤ r.snap.n.toNat := by rw [h.snap]; exact h.inside
  have hfinished' : r.lanes.all (Lane.finished r.snap.op.writesY) = true := by rw [hop]; exact hfinished
  exact {
    snap := h.snap
    live := h.live
    turn := h.turn
    target := h.target
    status := h.status
    memory := h.memory
    took := ⟨h.took.drawn, h.took.choices, h.took.responses, h.took.capin⟩
    inside := by rw [hp]; exact h.inside
    sound := by simp [Run.closed]
    made := by
      rw [hp, h.made, (lanesMade_eq_iff r.lanes h.sound).2.mp hfinished]
      simp [Run.closed, lanesMade, Nat.mul_add]
    answers_le := by rw [hp]; exact h.answers_le
    answers_ge := by rw [hp]; exact h.answers_ge
    scalar := h.scalar
    progress := ⟨fun ha => (h.progress.1 ha).closeStrip ha hinside hfinished',
      fun hc => (h.progress.2 hc).closeStrip hc hinside hfinished'⟩ }

/-- R61: no transaction is made twice, nor for an element that the command does not have. -/
theorem Reached.made_le {op : Instr} {s₀ s : State} {x c : Nat} {r : Run} (h : Reached op s₀ x c s r) :
    x ≤ accessesPerElement op.writesY * s₀.n.toNat := by
  have hlanes := (lanesMade_eq_iff r.lanes h.sound).1
  have hinside := Nat.mul_le_mul_left (accessesPerElement op.writesY) h.inside
  have hmade := h.made
  rw [Nat.mul_add] at hinside
  omega

/-- An open strip with something left to do leaves transactions to make. -/
theorem Reached.made_lt_of_open {op : Instr} {s₀ s : State} {x c : Nat} {r : Run} (h : Reached op s₀ x c s r)
    (hopen : r.lanes.all (Lane.finished op.writesY) = false) : x < accessesPerElement op.writesY * s₀.n.toNat := by
  obtain ⟨hle, hiff⟩ := lanesMade_eq_iff r.lanes h.sound
  have hne : lanesMade r.lanes ≠ accessesPerElement op.writesY * r.lanes.length := fun he => by
    rw [hiff.mpr he] at hopen
    cases hopen
  have hinside := Nat.mul_le_mul_left (accessesPerElement op.writesY) h.inside
  have hmade := h.made
  rw [Nat.mul_add] at hinside
  omega

/-- R61, R68, R207: an open strip makes one more transaction. -/
theorem Reached.transact {op : Instr} {s₀ s : State} {x c : Nat} {r : Run} (hs : Completes op s₀)
    (h : Reached op s₀ x c s r) (hopen : r.lanes.all (Lane.finished op.writesY) = false) :
    ∃ t, s.transact r = .next t ∧ Underway op s₀ (x + 1) c t := by
  have hop : r.snap.op = op := by rw [h.snap]; rfl
  have hok : s.afterChoice.response = .ok := by
    simp only [State.response, State.afterChoice_responses, h.took.responses]
    exact Feed.now_iterate_of_always hs.serves.answers x _
  obtain ⟨y, l, hl, hf, hnext⟩ := State.transact_ok (s := s) (r := r) (by rw [hop]; exact hs.memory.isMemory)
    (by rw [h.snap]; exact hs.ready.checks) (by rw [h.snap]; exact h.inside) (by rw [hop]; exact hopen)
    (by rw [h.target]; exact hs.serves.coherent) (by rw [h.snap, h.target]; exact hs.ready.placed) hok
  refine ⟨_, hnext, ?_⟩
  have hdone := Reached.transaction hs h y l hl (by rw [← hop]; exact hf)
  rw [State.afterTransaction]
  rcases State.settleStrip_cases _ _ with ⟨hall, hclose⟩ | ⟨hall, hkeep⟩
  · rw [hclose]
    exact ⟨_, rfl, hdone.closeStrip (by rw [← hop]; exact hall), fun hn => absurd rfl hn⟩
  · rw [hkeep]
    exact ⟨_, rfl, hdone.withRun _, fun _ => by rw [← hop]; exact hall⟩

/-- A strip just opened has everything left to do. -/
theorem Run.openStrip_unfinished (r : Run) (w : Nat) (writes : Bool) (h : (r.openStrip w).lanes ≠ []) :
    (r.openStrip w).lanes.all (Lane.finished writes) = false := by
  cases w with
  | zero => exact absurd rfl h
  | succ w => simp [List.replicate_succ, Lane.finished]

/-- R151: with CAPIN and elements left, an answer opens the next strip. -/
theorem Reached.takeChunk {op : Instr} {s₀ s : State} {x c : Nat} {r : Run} (hs : Completes op s₀)
    (h : Reached op s₀ x c s r) (hl : r.lanes = []) (hp : s.processed.toNat < s₀.n.toNat)
    (hv : takesCapin op s₀.target = true) : ∃ t, s.takeChunk r = .next t ∧ Underway op s₀ x (c + 1) t := by
  obtain ⟨hlow, hhigh⟩ : 1 ≤ s.chunkAnswer ∧ s.chunkAnswer ≤ s₀.target.vlmax := by
    have hfree := Nat.mod_lt (Config.chunkAnswer s.drawn) (Target.vlmax_pos hs.ready.inv.target)
    simp only [State.chunkAnswer, h.took.capin, h.target]
    exact Feed.now_iterate_of_capinLegal (hs.capin hv) c _ ⟨by omega, by omega⟩
  rcases s.takeChunk_cases r with ⟨-, -, hnext⟩ | ⟨hnot, -⟩
  · refine ⟨_, hnext, _, rfl, ?_, fun hne => ?_⟩
    · have hn : r.snap.n = s₀.n := by rw [h.snap]; rfl
      have hle := h.answers_le
      have hge := h.answers_ge hv
      rw [hl, List.length_nil] at hle hge
      rw [hn]
      refine h.openStrip hl (by omega) _ _ _ (h.took.chunk rfl rfl rfl rfl) (by omega) (fun _ => ?_) fun hv' => ?_
      · rw [Nat.succ_mul]
        omega
      · rw [hv] at hv'
        cases hv'
    · exact Run.openStrip_unfinished r _ op.writesY hne
  · rw [h.target] at hnot
    exact absurd ⟨hlow, hhigh⟩ hnot

/-- One own step before the last transaction: a transaction, or a CAPIN answer. -/
theorem Underway.step {op : Instr} {s₀ s : State} {x c : Nat} (hs : Completes op s₀) (h : Underway op s₀ x c s)
    (hx : x < accessesPerElement op.writesY * s₀.n.toNat) :
    ∃ t x' c', exec op s = .next t ∧ Underway op s₀ x' c' t ∧ x' + c' = x + c + 1 := by
  obtain ⟨r, hrun, hr, hopen⟩ := h
  have hexec := exec_memory_unit hs.memory s r hr.turn hrun (by rw [hr.snap]; rfl) hr.live
  have hn : r.snap.n = s₀.n := by rw [hr.snap]; rfl
  rw [hexec]
  rcases s.stripStep_cases r (takesCapin op s.target) (s.finishMemory op) with
    ⟨hne, hstep⟩ | ⟨hl, hp, hv, hstep⟩ | ⟨hl, hp, hv, hstep⟩ | ⟨hl, hp, -⟩
  · obtain ⟨t, ht, hu⟩ := hr.transact hs (hopen hne)
    exact ⟨t, x + 1, c, hstep.trans ht, hu, by omega⟩
  · obtain ⟨t, ht, hu⟩ := hr.takeChunk hs hl (hn ▸ hp) (hr.target ▸ hv)
    exact ⟨t, x, c + 1, hstep.trans ht, hu, by omega⟩
  · have hv' : takesCapin op s₀.target = false := hr.target ▸ hv
    have hp' : s.processed.toNat < s₀.n.toNat := hn ▸ hp
    have hscalar : Reached op s₀ x c s (r.openStrip 1) := hr.openStrip hl (by omega) s.run s.capin s.drawn hr.took
      (by have := hr.answers_le; simp only [hl, List.length_nil] at this; omega) (fun h => by simp [hv'] at h) hr.scalar
    obtain ⟨t, ht, hu⟩ := hscalar.transact hs (r.openStrip_unfinished 1 _ (by simp))
    exact ⟨t, x + 1, c, hstep.trans ht, hu, by omega⟩
  · have hmade := hr.made
    rw [hl] at hmade
    have : accessesPerElement op.writesY * s₀.n.toNat ≤ accessesPerElement op.writesY * s.processed.toNat :=
      Nat.mul_le_mul_left _ (hn ▸ hp)
    omega

/-- R201: with every transaction made, the next own step is the completion. -/
theorem Underway.last {op : Instr} {s₀ s : State} {c : Nat} (hs : Completes op s₀)
    (h : Underway op s₀ (accessesPerElement op.writesY * s₀.n.toNat) c s) :
    ∃ r, Reached op s₀ (accessesPerElement op.writesY * s₀.n.toNat) c s r ∧ r.lanes = [] ∧ s.processed = s₀.n ∧
      exec op s = .next (s.finishMemory op r) := by
  obtain ⟨r, hrun, hr, hopen⟩ := h
  have hl : r.lanes = [] := by
    by_contra hne
    exact absurd (hr.made_lt_of_open (hopen hne)) (by omega)
  have hp : s.processed = s₀.n := by
    have hmade := hr.made
    rw [hl] at hmade
    have hpos : 0 < accessesPerElement op.writesY := by unfold accessesPerElement; split <;> omega
    exact BitVec.eq_of_toNat_eq (Nat.eq_of_mul_eq_mul_left hpos hmade).symm
  refine ⟨r, hr, hl, hp, ?_⟩
  rw [exec_memory_unit hs.memory s r hr.turn hrun (by rw [hr.snap]; rfl) hr.live]
  rcases s.stripStep_cases r (takesCapin op s.target) (s.finishMemory op) with
    ⟨hne, -⟩ | ⟨-, hlt, -⟩ | ⟨-, hlt, -⟩ | ⟨-, -, hstep⟩
  · exact absurd hl hne
  · rw [hp, hr.snap] at hlt
    exact absurd hlt (Nat.lt_irrefl _)
  · rw [hp, hr.snap] at hlt
    exact absurd hlt (Nat.lt_irrefl _)
  · exact hstep

/-! ## The whole command -/

theorem execTimes_succ_of_next {op : Instr} {s t : State} (h : exec op s = .next t) (k : Nat) :
    execTimes op (k + 1) s = execTimes op k t := by
  simp only [execTimes, h]

theorem execTimes_append {op : Instr} {s t : State} {j : Nat} (h : execTimes op j s = .next t) (k : Nat) :
    execTimes op (j + k) s = execTimes op k t := by
  induction j generalizing s with
  | zero =>
    cases h
    rw [Nat.zero_add]
  | succ j ih =>
    rw [Nat.add_right_comm]
    cases hs : exec op s with
    | next u =>
      rw [execTimes_succ_of_next hs] at h ⊢
      exact ih h
    | fault f => simp [execTimes, hs] at h
    | refused f => simp [execTimes, hs] at h

/-- R251: from wherever it has come, the command makes all its transactions. -/
theorem Underway.makes_all {op : Instr} {s₀ s : State} {x c : Nat} (hs : Completes op s₀)
    (h : Underway op s₀ x c s) :
    ∃ k c' t, execTimes op k s = .next t ∧ Underway op s₀ (accessesPerElement op.writesY * s₀.n.toNat) c' t ∧
      x + c + k = accessesPerElement op.writesY * s₀.n.toNat + c' := by
  have hbound : x ≤ accessesPerElement op.writesY * s₀.n.toNat ∧ c ≤ s₀.n.toNat := by
    obtain ⟨r, -, hr, -⟩ := h
    exact ⟨hr.made_le, hr.answers_le.trans hr.inside⟩
  by_cases hx : x < accessesPerElement op.writesY * s₀.n.toNat
  · obtain ⟨t, x', c', hnext, ht, hsum⟩ := h.step hs hx
    obtain ⟨k, c'', u, hk, hu, htotal⟩ := ht.makes_all hs
    exact ⟨k + 1, c'', u, (execTimes_succ_of_next hnext k).trans hk, hu, by omega⟩
  · obtain rfl : x = accessesPerElement op.writesY * s₀.n.toNat := by omega
    exact ⟨0, c, s, rfl, h, rfl⟩
termination_by accessesPerElement op.writesY * s₀.n.toNat + s₀.n.toNat + 1 - (x + c)
decreasing_by omega

/-- R183, R251: no step before the last transaction ends the command. -/
theorem Underway.still_running {op : Instr} {s₀ s u : State} {x c j : Nat} (hs : Completes op s₀)
    (h : Underway op s₀ x c s) (hj : x + c + j ≤ accessesPerElement op.writesY * s₀.n.toNat)
    (hu : execTimes op j s = .next u) : u.run ≠ none := by
  induction j generalizing s x c with
  | zero =>
    cases hu
    obtain ⟨r, hrun, -⟩ := h
    simp [hrun]
  | succ j ih =>
    obtain ⟨t, x', c', hnext, ht, hsum⟩ := h.step hs (by omega)
    exact ih ht (by omega) ((execTimes_succ_of_next hnext j).symm.trans hu)

theorem Underway.start {op : Instr} {s₀ : State} (hs : Completes op s₀) : Underway op s₀ 0 0 (afterIssue op s₀) :=
  ⟨_, rfl, Reached.start hs, fun h => absurd rfl h⟩

/-- R130, R150, R183, R251: a memory command on a platform that answers completes, one own step after it has made all
its transactions and taken c CAPIN answers. -/
theorem wholeCommand_completes {op : Instr} {s : State} (hs : Completes op s) :
    ∃ c t r, wholeCommand op (accessesPerElement op.writesY * s.n.toNat + c + 1) s = .next (t.finishMemory op r) ∧
      Reached op s (accessesPerElement op.writesY * s.n.toNat) c t r ∧ r.lanes = [] ∧ t.processed = s.n := by
  obtain ⟨k, c, t, hk, ht, hsum⟩ := (Underway.start hs).makes_all hs
  obtain ⟨r, hr, hl, hp, hlast⟩ := ht.last hs
  refine ⟨c, t, r, ?_, hr, hl, hp⟩
  obtain rfl : k = accessesPerElement op.writesY * s.n.toNat + c := by omega
  rw [wholeCommand_eq hs.memory hs.ready, execTimes_append hk, execTimes_succ_of_next hlast]
  rfl

theorem wholeCommand_still_running {op : Instr} {s u : State} {j : Nat} (hs : Completes op s)
    (hj : j ≤ accessesPerElement op.writesY * s.n.toNat) (hu : wholeCommand op j s = .next u) : u.run ≠ none :=
  (Underway.start hs).still_running hs (by omega) (wholeCommand_eq hs.memory hs.ready j ▸ hu)

/-- The CAPIN answers that a completed command has taken: at most one an element, and enough of at most VLMAX. -/
theorem Reached.answers {op : Instr} {s₀ t : State} {x c : Nat} {r : Run} (h : Reached op s₀ x c t r)
    (hl : r.lanes = []) (hp : t.processed = s₀.n) :
    c ≤ s₀.n.toNat ∧ (takesCapin op s₀.target = true → s₀.n.toNat ≤ c * s₀.target.vlmax) ∧
      (takesCapin op s₀.target = false → c = 0) := by
  have hle := h.answers_le
  have hge := h.answers_ge
  rw [hl, hp] at hle hge
  exact ⟨hle, hge, h.scalar⟩

/-- R132, R158: y holds its results once every element is completed. -/
theorem Reached.axpy_results {op : Instr} {s₀ t : State} {x c : Nat} {r : Run} (hop : IsAxpy op)
    (h : Reached op s₀ x c t r) (hp : t.processed = s₀.n) (i : Nat) (hi : i < s₀.n.toNat) :
    Memory.readSample t.mem (elem s₀.yAddr i) = axpyElement s₀.mem (capture op s₀) i := by
  have hsnap := h.snap
  have hnew := (h.progress.1 (by rw [hsnap]; exact hop)).completed i (hp ▸ hi)
  rw [yNew, hsnap] at hnew
  exact hnew

/-- Settles O51: AXPY_REF makes three transactions an element and takes no CAPIN answer. -/
theorem axpyRefCompletes : Obligations.AxpyRefCompletes := by
  intro s hready hserves
  have hs : Completes .axpyRef s := ⟨.inl rfl, hready, hserves, fun h => by cases h⟩
  obtain ⟨c, t, r, hrun, ht, hl, hp⟩ := wholeCommand_completes hs
  obtain rfl : c = 0 := ht.scalar rfl
  have hstatus : t.status.completed = s.status.success := by rw [ht.status]; rfl
  have hy := ht.axpy_results (.inl rfl) hp
  exact ⟨_, hrun, ht.took.finishMemory _ r, hstatus, rfl, hp,
    hy, fun j u hj hu => wholeCommand_still_running hs hj hu⟩

/-- Settles O52: AXPY_VEC makes three transactions an element, and its strips account for the CAPIN answers. -/
theorem axpyVecCompletes : Obligations.AxpyVecCompletes := by
  intro s hready hserves hcapin
  have hs : Completes .axpyVec s := ⟨.inr (.inl rfl), hready, hserves, fun _ => hcapin⟩
  obtain ⟨c, t, r, hrun, ht, hl, hp⟩ := wholeCommand_completes hs
  obtain ⟨hle, hge, hscalar⟩ := ht.answers hl hp
  have hstatus : t.status.completed = s.status.success := by rw [ht.status]; rfl
  have hy := ht.axpy_results (.inr rfl) hp
  exact ⟨c, _, hle, hge, hscalar, hrun, ht.took.finishMemory _ r, hstatus,
    rfl, hp, hy⟩

/-- Settles O54: COMPARE makes two reads an element, and its report is that over all n elements (R181, R182, R184). -/
theorem compareCompletes : Obligations.CompareCompletes := by
  intro s hready hserves hcapin
  have hs : Completes .compare s := ⟨.inr (.inr rfl), hready, hserves, fun _ => hcapin⟩
  obtain ⟨c, t, r, hrun, ht, hl, hp⟩ := wholeCommand_completes hs
  obtain ⟨hle, hge, hscalar⟩ := ht.answers hl hp
  have hprogress := ht.progress.2 (by rw [ht.snap]; rfl)
  have heq := hprogress.eq
  have hmd := hprogress.md
  rw [ht.snap, hp] at heq hmd
  obtain ⟨hbound, hzero⟩ := maxDistance_bound s.mem (capture .compare s) s.n.toNat
  have hequal : r.eq = decide (maxDistance s.mem (capture .compare s) s.n.toNat = 0) := by
    rw [Bool.eq_iff_iff, heq, decide_eq_true_eq, hzero]
  have hstatus : { t.status with equal := r.eq }.completed = { s.status.success with
      equal := decide (maxDistance s.mem (capture .compare s) s.n.toNat = 0) } := by
    rw [ht.status, hequal]
    rfl
  have hmaxdiff : (BitVec.ofNat 32 r.md).toNat = maxDistance s.mem (capture .compare s) s.n.toNat := by
    rw [hmd, BitVec.toNat_ofNat, Nat.mod_eq_of_lt (by omega)]
  exact ⟨c, _, hle, hge, hscalar, hrun, ht.took.finishMemory _ r, rfl,
    hstatus, hmaxdiff, hp, hprogress.mem, fun j u hj hu => wholeCommand_still_running hs hj hu⟩

end Sys2Proof.Machine
end

section
/-! PROOFS. What a step can do, said once: an own step of the running command, and each event of the unit's surroundings
(R7, R43). -/

namespace Sys2Proof.Machine

/-! ## The invariant rests on the unit and the memory, not on what surrounds them -/

/-- What holds of a running command rests on PROCESSED, the installation and the loans. -/
theorem Run.Legal.congr {s t : State} {r : Run} (h : r.Legal s) (hp : t.processed = s.processed)
    (ht : t.target = s.target) (hloans : t.loans = s.loans) : r.Legal t :=
  { h with
    inside := by rw [hp]; exact h.inside
    width := by rw [ht]; exact h.width
    borrowed := by rw [hloans]; exact h.borrowed }

/-- Whose turn it is and which events are to come is no part of the invariant. -/
theorem State.Inv.withTurn {s : State} (h : s.Inv) (rest : List Event) (turn : Agent) :
    { s with agenda := rest, turn := turn }.Inv :=
  { h with running := fun r hr => (h.running r hr).congr rfl rfl rfl }

theorem State.Inv.withAgenda {s : State} (h : s.Inv) (rest : List Event) : { s with agenda := rest }.Inv :=
  h.withTurn rest s.turn

theorem State.Inv.idle_of_run {s : State} (h : s.Inv) (hr : s.run = none) : s.status.busy = false := by
  simp [h.busy, hr]

theorem State.Inv.busy_of_run {s : State} (h : s.Inv) {r : Run} (hr : s.run = some r) : s.status.busy = true := by
  simp [h.busy, hr]

theorem State.Inv.run_of_idle {s : State} (h : s.Inv) (hb : s.status.busy = false) : s.run = none := by
  simpa [hb] using h.busy

/-- A command that runs over memory is one of the three. -/
theorem isMemoryCommand_of_isMemory {op : Instr} (h : op.isMemory = true) : IsMemoryCommand op := by
  cases op with
  | nop => cases h
  | mac => cases h
  | clamp => cases h
  | axpyRef => exact .inl rfl
  | axpyVec => exact .inr (.inl rfl)
  | compare => exact .inr (.inr rfl)

/-- A strip of c fresh lanes inside the buffers and within the width may be opened. -/
theorem Run.Legal.openStrip {s : State} {r : Run} (h : r.Legal s) (hop : r.snap.op.isMemory = true) (c : Nat)
    (hinside : s.processed.toNat + c ≤ r.snap.n.toNat) (hwidth : c ≤ s.target.vlmax)
    (href : r.snap.op = .axpyRef → c ≤ 1) : (r.openStrip c).Legal s := by
  have hfresh : ∀ l ∈ (r.openStrip c).lanes, l = Lane.fresh := fun l hl => List.eq_of_mem_replicate hl
  exact {
    accepted := h.accepted
    checked := h.checked
    inside := fun _ => by simpa using hinside
    no_strip := fun hn => absurd (hop.symm.trans hn) (by decide)
    width := by simpa using hwidth
    reference_width := fun hr => by simpa using href hr
    reads_first := fun l hl hs => by simp [hfresh l hl] at hs
    no_store := fun _ l hl => by rw [hfresh l hl]; rfl
    kept := fun l hl => by rw [hfresh l hl]; rfl
    unfinished := r.openStrip_unfinished c _
    seen := h.seen
    md := h.md
    eq_iff := h.eq_iff
    borrowed := h.borrowed
    raced := h.raced
    hung := h.hung }

/-! ## The own step of the running command -/

/-- R131, R156: the strip the next transaction belongs to. It is the open one; or, where none is open and elements are
left, one of one element, which the transaction opens. -/
def Run.NextStrip (s : State) (r q : Run) : Prop :=
  (r.lanes ≠ [] ∧ q = r) ∨ (r.lanes = [] ∧ s.processed.toNat < r.snap.n.toNat ∧ q = r.openStrip 1)

/-- The transaction x of the strip q that the command running in s with r may make next. -/
structure NextTransaction (s : State) (r q : Run) (x : Xact) : Prop where
  memory : IsMemoryCommand r.snap.op
  strip : r.NextStrip s q
  legal : q.Legal s
  picked : pick (enabledFrom q.snap.op.writesY 0 q.lanes) s.choice = some x
  fits : ∃ l, q.lanes[x.lane]? = some l ∧ x.fits q.snap.op.writesY l

theorem NextTransaction.snap {s : State} {r q : Run} {x : Xact} (h : NextTransaction s r q x) : q.snap = r.snap := by
  rcases h.strip with ⟨-, rfl⟩ | ⟨-, -, rfl⟩ <;> rfl

theorem NextTransaction.lanes_ne_nil {s : State} {r q : Run} {x : Xact} (h : NextTransaction s r q x) :
    q.lanes ≠ [] := by
  obtain ⟨l, hl, -⟩ := h.fits
  intro hn
  simp [hn] at hl

/-- The state after a transaction that succeeded, before the strip is settled: a draw and a response are taken, and one
sample has moved. -/
def State.moved (s : State) (q : Run) (x : Xact) : State :=
  { s with
    mem := s.memAfter q x
    choices := s.choices.advance
    responses := s.responses.advance
    drawn := s.drawn + 2 }

/-- The strip after a transaction that succeeded, before it is settled. -/
def Run.moved (q : Run) (s : State) (x : Xact) : Run :=
  { q with lanes := q.lanesAfter x (Memory.readSample s.mem (x.address q.snap s.processed.toNat)) }

/-- What an own step of the command running in s with r can leave (R7, R121, R122, R130, R150, R180, R207, R252). -/
inductive OwnStep (s : State) (r : Run) : State → Prop
  | mac (hop : r.snap.op = .mac) : OwnStep s r (s.finishMac r)
  | clamp (hop : r.snap.op = .clamp) : OwnStep s r (s.finishClamp r)
  | chunk (hop : IsMemoryCommand r.snap.op) (href : r.snap.op ≠ .axpyRef) (hl : r.lanes = [])
      (hp : s.processed.toNat < r.snap.n.toNat) (hw : s.chunkAnswer ≤ s.target.vlmax) :
      OwnStep s r { s.afterChunk with
        run := some (r.openStrip (min s.chunkAnswer (r.snap.n.toNat - s.processed.toNat))) }
  | moved (q : Run) (x : Xact) (h : NextTransaction s r q x)
      (hopen : (q.moved s x).lanes.all (Lane.finished q.snap.op.writesY) = false) :
      OwnStep s r { s.moved q x with run := some (q.moved s x) }
  | closed (q : Run) (x : Xact) (h : NextTransaction s r q x)
      (hfinished : (q.moved s x).lanes.all (Lane.finished q.snap.op.writesY) = true) :
      OwnStep s r ((s.moved q x).closeStrip (q.moved s x))
  | failed (q : Run) (x : Xact) (h : NextTransaction s r q x) (hresponse : s.afterChoice.response = .error) :
      OwnStep s r (s.afterChoice.afterResponse.busError q (x.address q.snap s.processed.toNat))
  | silent (q : Run) (x : Xact) (h : NextTransaction s r q x) (hresponse : s.afterChoice.response = .silent) :
      OwnStep s r (s.afterChoice.afterResponse.hang q)
  | finish (hop : IsMemoryCommand r.snap.op) (hl : r.lanes = []) (hp : s.processed = r.snap.n) :
      OwnStep s r (s.finishMemory r.snap.op r)

/-- What the three responses make of a transaction. -/
theorem OwnStep.of_respond {s : State} {r q : Run} {x : Xact} (h : NextTransaction s r q x) :
    OwnStep s r (s.afterChoice.respond q x) := by
  obtain ⟨l, hl, hf⟩ := h.fits
  unfold State.respond
  cases hresponse : s.afterChoice.response with
  | ok =>
    have hperform : s.afterChoice.afterResponse.perform q x = (s.moved q x).settleStrip (q.moved s x) :=
      s.afterChoice.afterResponse.perform_of_fits q x l hl hf
    dsimp only
    rw [hperform]
    rcases (s.moved q x).settleStrip_cases (q.moved s x) with ⟨hall, hsettle⟩ | ⟨hall, hsettle⟩ <;> rw [hsettle]
    · exact .closed q x h hall
    · exact .moved q x h hall
  | error => exact .failed q x h hresponse
  | silent => exact .silent q x h hresponse

/-- R68: a transaction step picks a transaction that fits its lane, and the memory system responds to it. -/
theorem OwnStep.of_transact {s t : State} {r q : Run} (hop : IsMemoryCommand r.snap.op) (hstrip : r.NextStrip s q)
    (hlegal : q.Legal s) (hl : q.lanes ≠ []) (h : s.transact q = .next t) : OwnStep s r t := by
  obtain ⟨y, hy⟩ := pick_of_unfinished _ _ s.choice (hlegal.unfinished hl)
  rcases s.transact_cases q _ h with ⟨hn, -⟩ | ⟨x, l, hpick, hx, hf, ⟨-, hc⟩ | ⟨-, hc⟩ | ⟨-, hc⟩ | ⟨-, -, -, hc⟩⟩
  · exact absurd (hn.symm.trans hy) (by simp)
  all_goals cases hc
  exact .of_respond ⟨hop, hstrip, hlegal, hpick, l, hx, hf⟩

/-- Every own step of the running command is one of these. -/
theorem OwnStep.of_exec {s t : State} {r : Run} (hinv : s.Inv) (hturn : s.turn = .unit) (hrun : s.run = some r)
    (hlive : r.hung = false) (h : exec r.snap.op s = .next t) : OwnStep s r t := by
  have hlegal := hinv.running r hrun
  have hmemory : IsMemoryCommand r.snap.op → OwnStep s r t := by
    intro hop
    rw [exec_memory_unit hop s r hturn hrun rfl hlive] at h
    have hinside := hlegal.inside hop.isMemory
    rcases s.stripStep_cases r (takesCapin r.snap.op s.target) (s.finishMemory r.snap.op) with
      ⟨hl, hs⟩ | ⟨hl, hp, hv, hs⟩ | ⟨hl, hp, -, hs⟩ | ⟨hl, hp, hs⟩ <;> rw [hs] at h
    · exact .of_transact hop (.inl ⟨hl, rfl⟩) hlegal hl h
    · rcases s.takeChunk_cases r with ⟨-, hw, hc⟩ | ⟨-, hc⟩ <;> rw [hc] at h <;> cases h
      exact .chunk hop (fun he => by simp [takesCapin, he] at hv) hl hp hw
    · have hone := hlegal.openStrip hop.isMemory 1 (by omega) (Target.vlmax_pos hinv.target) fun _ => Nat.le_refl 1
      exact .of_transact hop (.inr ⟨hl, hp, rfl⟩) hone (by simp) h
    · cases h
      rw [hl, List.length_nil] at hinside
      exact .finish hop hl (BitVec.eq_of_toNat_eq (by omega))
  cases hop : r.snap.op with
  | nop => exact absurd hop hlegal.accepted
  | mac =>
    rw [hop, exec_mac_unit s r hturn hrun hop hlive] at h
    cases h
    exact .mac hop
  | clamp =>
    rw [hop, exec_clamp_unit s r hturn hrun hop hlive] at h
    cases h
    exact .clamp hop
  | axpyRef => exact hmemory (.inl hop)
  | axpyVec => exact hmemory (.inr (.inl hop))
  | compare => exact hmemory (.inr (.inr hop))

/-- A command that waits for ever for a response takes no own step (R252). -/
theorem exec_hung (s : State) (r : Run) (hturn : s.turn = .unit) (hrun : s.run = some r) (hhung : r.hung = true)
    (i : Instr) : exec i s = .next s := by
  cases i <;>
    simp [exec, execNop, execMac, execClamp, execAxpyRef, execAxpyVec, execCompare, hturn, State.unitStep, hrun, hhung]

/-! ## The offsets of the window (R22) -/

theorem registerAt_offset (reg : Reg) : registerAt reg.offset = some reg := by
  cases reg <;> rfl

theorem registerAt_reserved (o : Nat) (hlow : 0x44 ≤ o) (hhigh : o < 0x100) (halign : o % 4 = 0) :
    registerAt o = some .reserved := by
  unfold registerAt
  split <;> simp_all

/-- R22: a register stands at its own offset, and the reserved one at every word-aligned offset from 0x44 on. -/
theorem registerAt_eq_some {o : Nat} {reg : Reg} (h : registerAt o = some reg) :
    o = reg.offset ∨ (reg = .reserved ∧ 0x44 ≤ o ∧ o < 0x100 ∧ o % 4 = 0) := by
  unfold registerAt at h
  split at h
  case h_18 =>
    split at h
    · next hrange =>
      cases h
      exact .inr ⟨rfl, by simp only [imp_false] at *; omega, hrange⟩
    · cases h
  all_goals
    cases h
    exact .inl rfl

/-- R23: a register is reached exactly by a 32-bit access at its offset. -/
theorem portRegister_eq_some {t : Target} {place : Place} {size : Nat} {reg : Reg} :
    portRegister t place size = some reg ↔ size = 4 ∧ ∃ o, place.resolve t = some o ∧ registerAt o = some reg := by
  by_cases h : size = 4 <;> simp [portRegister, h, Option.bind_eq_some_iff]

/-! ## The step -/

/-- What one step of the machine can do to the state s (R7). -/
inductive StepOf (s : State) : State → Prop
  | quiet (ha : s.agenda = []) (hr : s.run = none) : StepOf s s
  | idle (rest : List Event) (ha : s.agenda = .unit :: rest) (hr : s.run = none) : StepOf s { s with agenda := rest }
  | own (rest : List Event) (r : Run) (t : State) (ha : s.agenda = [] ∧ rest = [] ∨ s.agenda = .unit :: rest)
      (hr : s.run = some r) (hlive : r.hung = false) (h : OwnStep { s with agenda := rest, turn := .unit } r t) :
      StepOf s t
  | stuck (rest : List Event) (r : Run) (ha : s.agenda = .unit :: rest) (hr : s.run = some r) (hhung : r.hung = true) :
      StepOf s { s with agenda := rest, turn := .unit }
  | reset (rest : List Event) (ha : s.agenda = .reset :: rest) : StepOf s { s with agenda := rest }.resetUnit
  | write (o : Nat) (w : Word) (rest : List Event) (reg : Reg) (hw : s.writesNext o w rest)
      (ho : registerAt o = some reg) (hreg : reg ≠ .cmd) : StepOf s ({ s with agenda := rest }.writeReg reg w)
  | nop (w : Word) (rest : List Event) (hw : s.writesNext 0x0C w rest) (hd : decode w = .command .nop) :
      StepOf s { s with agenda := rest, turn := .host }
  | dropped (w : Word) (rest : List Event) (hw : s.writesNext 0x0C w rest) (hd : decode w ≠ .command .nop)
      (hb : s.status.busy = true) : StepOf s { s with agenda := rest, turn := .host }.overrun
  | illegal (w : Word) (rest : List Event) (why : IllegalReason) (hw : s.writesNext 0x0C w rest)
      (hd : decode w = .illegal why) (hb : s.status.busy = false) :
      StepOf s ({ s with agenda := rest, turn := .host }.raiseError .illegal none)
  | rejected (w : Word) (rest : List Event) (i : Instr) (code : ErrCode) (addr : Word) (hw : s.writesNext 0x0C w rest)
      (hd : decode w = .command i) (hi : i ≠ .nop) (hb : s.status.busy = false)
      (he : (capture i s).issueError = some (code, addr)) :
      StepOf s ({ s with agenda := rest, turn := .host }.raiseError code (some addr))
  | accepted (w : Word) (rest : List Event) (i : Instr) (hw : s.writesNext 0x0C w rest) (hd : decode w = .command i)
      (hi : i ≠ .nop) (hb : s.status.busy = false) (he : (capture i s).issueError = none)
      (hplaced : (capture i s).inOrdinaryMemory s.target = true) :
      StepOf s ({ s with agenda := rest, turn := .host }.accept (capture i s))
  | read (o : Nat) (rest : List Event) (reg : Reg) (hread : s.readsNext o rest) (ho : registerAt o = some reg) :
      StepOf s ({ s with agenda := rest }.readReg reg)
  | waitIdle (rest : List Event) (ha : s.agenda = .wait :: rest) (hr : s.run = none) :
      StepOf s ({ s with agenda := rest }.readReg .status)
  | waitBusy (rest : List Event) (r : Run) (ha : s.agenda = .wait :: rest) (hr : s.run = some r) :
      StepOf s { { s with agenda := rest }.readReg .status with agenda := .unit :: .wait :: rest }
  | irqSample (rest : List Event) (ha : s.agenda = .irqSample :: rest) :
      StepOf s { s with agenda := rest }.hostIrqSample
  | store (e : Nat) (v : Sample) (rest : List Event) (ha : s.agenda = .memWrite e v :: rest)
      (hholds : Memory.holds e = true) (hfree : s.loans.any (·.lendsForWrite e) = false) :
      StepOf s { s with agenda := rest, mem := Memory.writeSample s.mem e v }
  | load (e : Nat) (rest : List Event) (ha : s.agenda = .memRead e :: rest) :
      StepOf s { s with agenda := rest, rdata := zext32 (Memory.readSample s.mem e) }

/-- R200: every outcome of a CMD write. -/
theorem StepOf.of_issueWord {s t : State} {w : Word} {rest : List Event} (hw : s.writesNext 0x0C w rest)
    (h : { s with agenda := rest }.issueWord w = .next t) : StepOf s t := by
  cases hd : decode w with
  | illegal why =>
    simp only [State.issueWord, hd, State.issueIllegal] at h
    cases h
    cases hb : s.status.busy with
    | true => exact .dropped w rest hw (by simp [hd]) hb
    | false => exact .illegal w rest why hw hd hb
  | command i =>
    by_cases hi : i = .nop
    · subst hi
      rw [State.issueWord_nop _ w hd] at h
      cases h
      exact .nop w rest hw hd
    · rw [State.issueWord_command _ w i hd hi] at h
      rcases { s with agenda := rest, turn := .host }.issue_cases i with
        ⟨hb, hc⟩ | ⟨hb, code, addr, he, hc⟩ | ⟨hb, he, ho, hc⟩ | ⟨-, -, -, hc⟩ <;> rw [hc] at h <;> cases h
      · exact .dropped w rest hw (by simpa [hd] using hi) hb
      · exact .rejected w rest i code addr hw hd hi hb he
      · exact .accepted w rest i hw hd hi hb he ho

/-- R23: every outcome of a host write that is answered. -/
theorem StepOf.of_hostWrite {s t : State} {place : Place} {size : Nat} {w : Word} {rest : List Event}
    (ha : s.agenda = .regWrite place size w :: rest) (h : { s with agenda := rest }.hostWrite place size w = .next t) :
    StepOf s t := by
  unfold State.hostWrite at h
  split at h
  · cases h
  · next reg hport =>
    obtain ⟨rfl, o, hplace, ho⟩ := portRegister_eq_some.mp hport
    have hw : s.writesNext o w rest := ⟨place, hplace, ha⟩
    split at h
    · next hcmd =>
      subst hcmd
      obtain rfl : o = 0x0C := (registerAt_eq_some ho).resolve_right (by simp)
      exact .of_issueWord hw h
    · next hreg =>
      cases h
      exact .write o w rest reg hw ho hreg

/-- The unit's turn (R43, R225, R252). -/
theorem StepOf.of_unitTurn {s t : State} {rest : List Event} (hinv : s.Inv) (ha : s.agenda = .unit :: rest)
    (h : { s with agenda := rest }.unitTurn = .next t) : StepOf s t := by
  unfold State.unitTurn at h
  split at h
  · next hr =>
    cases h
    exact .idle rest ha hr
  · next r hr =>
    cases hhung : r.hung with
    | true =>
      cases (exec_hung { s with agenda := rest, turn := .unit } r rfl hr hhung _).symm.trans h
      exact .stuck rest r ha hr hhung
    | false => exact .own rest r t (.inr ha) hr hhung (.of_exec (hinv.withTurn rest .unit) rfl hr hhung h)

/-- R103: WAIT. -/
theorem StepOf.of_hostWait {s t : State} {rest : List Event} (ha : s.agenda = .wait :: rest)
    (h : { s with agenda := rest }.hostWait = .next t) : StepOf s t := by
  unfold State.hostWait at h
  split at h
  · next hr =>
    cases h
    exact .waitIdle rest ha hr
  · next r hr =>
    split at h <;> cases h
    exact .waitBusy rest r ha hr

/-- Every step of the machine that answers a next state is one of these. -/
theorem StepOf.of_step {s t : State} (hinv : s.Inv) (h : step s = .next t) : StepOf s t := by
  cases ha : s.agenda with
  | nil =>
    rcases step_quiet s ha with ⟨hr, hs⟩ | ⟨r, -, -, hs⟩ | ⟨r, hr, hlive, hs⟩ <;> rw [hs] at h
    · cases h
      exact .quiet ha hr
    · cases h
    · have h : exec r.snap.op { s with agenda := [], turn := .unit } = .next t := by
        rw [← ha]
        exact h
      exact .own [] r t (.inl ⟨ha, rfl⟩) hr hlive (.of_exec (hinv.withTurn [] .unit) rfl hr hlive h)
  | cons e rest =>
    rw [step_event s e rest ha] at h
    cases e with
    | reset =>
      cases h
      exact .reset rest ha
    | unit => exact .of_unitTurn hinv ha h
    | regWrite place size w => exact .of_hostWrite ha h
    | regRead place size =>
      simp only [State.handle, State.hostRead] at h
      split at h <;> cases h
      next reg hport =>
        obtain ⟨rfl, o, hplace, ho⟩ := portRegister_eq_some.mp hport
        exact .read o rest reg ⟨place, hplace, ha⟩ ho
    | wait => exact .of_hostWait ha h
    | irqSample =>
      cases h
      exact .irqSample rest ha
    | memWrite e v =>
      simp only [State.handle, State.hostStore] at h
      split_ifs at h with hholds hrace
      cases h
      exact .store e v rest ha (by simpa using hholds) (by simpa using hrace)
    | memRead e =>
      simp only [State.handle, State.hostLoad] at h
      split_ifs at h
      cases h
      exact .load e rest ha

end Sys2Proof.Machine
end

section
/-! PROOFS. What the shared operations leave of each register, and that every step keeps the invariant (R28, R39, R43,
R44, R47, R68, R184). -/

namespace Sys2Proof.Machine

/-! ## What a register write leaves of each field (R23 to R37, R49) -/

@[simp] theorem State.writeReg_target (s : State) (reg : Reg) (w : Word) : (s.writeReg reg w).target = s.target := by
  cases reg <;> rfl
@[simp] theorem State.writeReg_mem (s : State) (reg : Reg) (w : Word) : (s.writeReg reg w).mem = s.mem := by
  cases reg <;> rfl
@[simp] theorem State.writeReg_loans (s : State) (reg : Reg) (w : Word) : (s.writeReg reg w).loans = s.loans := by
  cases reg <;> rfl
@[simp] theorem State.writeReg_processed (s : State) (reg : Reg) (w : Word) :
    (s.writeReg reg w).processed = s.processed := by
  cases reg <;> rfl
@[simp] theorem State.writeReg_res (s : State) (reg : Reg) (w : Word) : (s.writeReg reg w).res = s.res := by
  cases reg <;> rfl
@[simp] theorem State.writeReg_maxdiff (s : State) (reg : Reg) (w : Word) :
    (s.writeReg reg w).maxdiff = s.maxdiff := by
  cases reg <;> rfl
@[simp] theorem State.writeReg_erraddr (s : State) (reg : Reg) (w : Word) :
    (s.writeReg reg w).erraddr = s.erraddr := by
  cases reg <;> rfl
@[simp] theorem State.writeReg_status (s : State) (reg : Reg) (w : Word) :
    (s.writeReg reg w).status = if reg = .status then s.status.acknowledge w else s.status := by
  cases reg <;> rfl
@[simp] theorem State.writeReg_run (s : State) (reg : Reg) (w : Word) :
    (s.writeReg reg w).run = if reg = .acc then s.run.map Run.raceAcc else s.run := by
  cases reg <;> rfl
@[simp] theorem State.writeReg_ctrlIE (s : State) (reg : Reg) (w : Word) :
    (s.writeReg reg w).ctrlIE = if reg = .ctrl then w.getLsbD 0 else s.ctrlIE := by
  cases reg <;> rfl
@[simp] theorem State.writeReg_n (s : State) (reg : Reg) (w : Word) :
    (s.writeReg reg w).n = if reg = .n then w else s.n := by
  cases reg <;> rfl
@[simp] theorem State.writeReg_alpha (s : State) (reg : Reg) (w : Word) :
    (s.writeReg reg w).alpha = if reg = .alpha then w.extractLsb' 0 16 else s.alpha := by
  cases reg <;> rfl
@[simp] theorem State.writeReg_aAddr (s : State) (reg : Reg) (w : Word) :
    (s.writeReg reg w).aAddr = if reg = .aAddr then w else s.aAddr := by
  cases reg <;> rfl
@[simp] theorem State.writeReg_bAddr (s : State) (reg : Reg) (w : Word) :
    (s.writeReg reg w).bAddr = if reg = .bAddr then w else s.bAddr := by
  cases reg <;> rfl
@[simp] theorem State.writeReg_yAddr (s : State) (reg : Reg) (w : Word) :
    (s.writeReg reg w).yAddr = if reg = .yAddr then w else s.yAddr := by
  cases reg <;> rfl
@[simp] theorem State.writeReg_opa (s : State) (reg : Reg) (w : Word) :
    (s.writeReg reg w).opa = if reg = .opa then w.extractLsb' 0 16 else s.opa := by
  cases reg <;> rfl
@[simp] theorem State.writeReg_opb (s : State) (reg : Reg) (w : Word) :
    (s.writeReg reg w).opb = if reg = .opb then w.extractLsb' 0 16 else s.opb := by
  cases reg <;> rfl
@[simp] theorem State.writeReg_acc (s : State) (reg : Reg) (w : Word) :
    (s.writeReg reg w).acc = if reg = .acc then w else s.acc := by
  cases reg <;> rfl

/-- R49: what a write to ACC leaves of the running command. -/
theorem Run.raceAcc_eq (r : Run) :
    r.raceAcc = { r with accRaced := r.accRaced || decide (r.snap.op = .mac ∨ r.snap.op = .clamp) } := by
  unfold Run.raceAcc
  split <;> simp_all

/-! ## What a register read leaves (R23, R48) -/

/-- R48: the PROCESSED a host reads while a command runs lies between the largest one read before and n. -/
theorem State.processedRead_bounds {s : State} {r : Run} (hr : s.run = some r) (hseen : r.seen ≤ r.snap.n.toNat) :
    r.seen ≤ s.processedRead ∧ s.processedRead ≤ r.snap.n.toNat := by
  have := Nat.mod_lt s.choice (show 0 < r.snap.n.toNat - r.seen + 1 by omega)
  simp only [State.processedRead, hr]
  omega

/-- Everything a read changes: the draws, the word returned, what was seen of PROCESSED, and the loans. -/
theorem State.readReg_eq (s : State) (reg : Reg) :
    ∃ c d, s.readReg reg = { s with
      choices := c
      drawn := d
      rdata := s.readValue reg
      run := if reg = .processed then s.run.map (·.withSeen s.processedRead) else s.run
      loans := if reg = .status ∧ s.status.busy = false then [] else s.loans } := by
  unfold State.readReg
  split
  · exact ⟨_, _, rfl⟩
  · exact ⟨_, _, rfl⟩

@[simp] theorem State.readReg_target (s : State) (reg : Reg) : (s.readReg reg).target = s.target := by
  obtain ⟨c, d, h⟩ := s.readReg_eq reg
  rw [h]
@[simp] theorem State.readReg_mem (s : State) (reg : Reg) : (s.readReg reg).mem = s.mem := by
  obtain ⟨c, d, h⟩ := s.readReg_eq reg
  rw [h]
@[simp] theorem State.readReg_status (s : State) (reg : Reg) : (s.readReg reg).status = s.status := by
  obtain ⟨c, d, h⟩ := s.readReg_eq reg
  rw [h]
@[simp] theorem State.readReg_processed (s : State) (reg : Reg) : (s.readReg reg).processed = s.processed := by
  obtain ⟨c, d, h⟩ := s.readReg_eq reg
  rw [h]
@[simp] theorem State.readReg_maxdiff (s : State) (reg : Reg) : (s.readReg reg).maxdiff = s.maxdiff := by
  obtain ⟨c, d, h⟩ := s.readReg_eq reg
  rw [h]
@[simp] theorem State.readReg_rdata (s : State) (reg : Reg) : (s.readReg reg).rdata = s.readValue reg := rfl
@[simp] theorem State.readReg_run (s : State) (reg : Reg) :
    (s.readReg reg).run = if reg = .processed then s.run.map (·.withSeen s.processedRead) else s.run := rfl
@[simp] theorem State.readReg_loans (s : State) (reg : Reg) :
    (s.readReg reg).loans = if reg = .status ∧ s.status.busy = false then [] else s.loans := rfl

/-- R23: a read has no effect on a register. -/
theorem State.readReg_sameRegisters (s : State) (reg : Reg) : SameRegisters s (s.readReg reg) := by
  obtain ⟨c, d, h⟩ := s.readReg_eq reg
  rw [h]
  constructor <;> rfl

/-! ## What the ends of a command leave -/

/-- R121: everything the end of MAC changes. -/
theorem State.finishMac_eq (s : State) (r : Run) :
    ∃ acc c d, s.finishMac r = { s with
      acc := acc
      res := axpySample r.snap.opa r.snap.alpha r.snap.opb
      choices := c
      drawn := d }.complete := by
  unfold State.finishMac
  split
  · exact ⟨_, _, _, rfl⟩
  · exact ⟨_, _, _, rfl⟩

/-- R122, D29: everything the end of CLAMP changes; ACC, only where a host wrote it meanwhile. -/
theorem State.finishClamp_eq (s : State) (r : Run) :
    ∃ acc c d, s.finishClamp r = { s with
      acc := acc
      res := u16 (clamp (s32 r.snap.acc))
      choices := c
      drawn := d }.complete ∧ (r.accRaced = false → acc = s.acc) := by
  unfold State.finishClamp
  split
  · next hraced => exact ⟨_, _, _, rfl, fun h => absurd (hraced.symm.trans h) (by decide)⟩
  · exact ⟨_, _, _, rfl, fun _ => rfl⟩

/-- R201: everything the completion of a memory command changes; COMPARE's reports. -/
theorem State.finishMemory_eq (s : State) (r : Run) :
    (r.snap.op = .compare ∧ s.finishMemory r.snap.op r = (s.report r).complete) ∨
      (r.snap.op ≠ .compare ∧ s.finishMemory r.snap.op r = s.complete) := by
  unfold State.finishMemory
  split
  · next h => exact .inl ⟨h, rfl⟩
  · next h => exact .inr ⟨h, rfl⟩

/-- R209: everything error BUS changes. COMPARE reports and leaves memory alone; an AXPY command only leaves its open
strip in memory. -/
theorem State.busError_eq (s : State) (q : Run) (addr : Nat) :
    ∃ m c d, (Memory.wf s.mem → Memory.wf m) ∧
      ((q.snap.op = .compare ∧ m = s.mem ∧ s.busError q addr = { s.report q with
          mem := m, choices := c, drawn := d }.raiseError .bus (some (BitVec.ofNat 32 addr))) ∨
        (q.snap.op ≠ .compare ∧ m = (s.spill q).mem ∧ s.busError q addr = { s with
          mem := m, choices := c, drawn := d }.raiseError .bus (some (BitVec.ofNat 32 addr)))) := by
  unfold State.busError
  split
  · next h => exact ⟨s.mem, s.choices, s.drawn, id, .inl ⟨h, rfl, rfl⟩⟩
  · next h =>
    obtain ⟨m, c, d, hspill, hwf, -⟩ := s.spill_frame q
    exact ⟨m, c, d, hwf, .inr ⟨h, by rw [hspill], by rw [hspill]⟩⟩

/-! ## STATUS stays legal (R28) -/

theorem Status.Legal.acknowledge {f : Status} (h : f.Legal) (w : Word) : (f.acknowledge w).Legal where
  busy_alone := fun hb => by
    obtain ⟨hd, he⟩ := h.busy_alone hb
    simp [hd, he]
  no_code := fun he => by
    rw [Status.acknowledge_errcode]
    split
    · rfl
    · next hw => exact h.no_code ((Bool.and_eq_false_iff.mp he).resolve_right (by simpa using hw))
  code := fun he => by
    obtain ⟨he, hw⟩ : f.err = true ∧ (!w.getLsbD 2) = true := Bool.and_eq_true_iff.mp he
    rw [Status.acknowledge_errcode, if_neg (by simpa using hw)]
    exact h.code he

theorem Status.Legal.overrun {f : Status} (h : f.Legal) : f.overrun.Legal :=
  ⟨h.busy_alone, h.no_code, h.code⟩

theorem Status.Legal.completed {f : Status} (h : f.Legal) : f.completed.Legal :=
  ⟨fun hb => by simp at hb, h.no_code, h.code⟩

theorem Status.Legal.withEqual {f : Status} (h : f.Legal) (e : Bool) : { f with equal := e }.Legal :=
  ⟨h.busy_alone, h.no_code, h.code⟩

theorem Status.legal_accepted (f : Status) : f.accepted.Legal :=
  ⟨fun _ => ⟨rfl, rfl⟩, fun _ => rfl, fun he => by simp at he⟩

/-- R202: the codes of the errors are 1 to 5. -/
theorem ErrCode.code_range (code : ErrCode) : 1 ≤ code.code.toNat ∧ code.code.toNat ≤ 5 := by
  cases code <;> decide

theorem Status.legal_failed (f : Status) (code : ErrCode) : (f.failed code).Legal :=
  ⟨fun hb => by simp at hb, fun he => by simp at he, fun _ => code.code_range⟩

/-! ## The running command stays legal -/

/-- R48, R49: what a host's accesses may change of the running command. -/
theorem Run.Legal.withHost {s : State} {r : Run} (h : r.Legal s) (seen : Nat) (raced : Bool)
    (hseen : seen ≤ r.snap.n.toNat) (hraced : raced = true → r.snap.op = .mac ∨ r.snap.op = .clamp) :
    { r with seen := seen, accRaced := raced }.Legal s :=
  { h with seen := hseen, raced := hraced }

/-- A command accepted after its checks has no strip and nothing reported (R200). -/
theorem Run.Legal.start {s : State} {k : Snapshot} (hop : k.op ≠ .nop) (hchecked : k.issueError = none)
    (hp : k.op.isMemory = true → s.processed = 0) (hloans : k.op.isMemory = true → k ∈ s.loans) :
    (Run.start k).Legal s where
  accepted := hop
  checked := hchecked
  inside := fun h => by simp [hp h]
  no_strip := fun _ => rfl
  width := Nat.zero_le _
  reference_width := fun _ => Nat.zero_le _
  reads_first := by simp
  no_store := by simp
  kept := by simp
  unfinished := fun h => absurd rfl h
  seen := Nat.zero_le _
  md := Nat.zero_le _
  eq_iff := by simp
  borrowed := hloans
  raced := fun h => by simp at h
  hung := fun h => by simp at h

/-- R61, R68: the lanes of a legal strip keep their order. -/
theorem Run.Legal.sound {s : State} {r : Run} (h : r.Legal s) (l : Lane) (hl : l ∈ r.lanes) :
    l.Sound r.snap.op.writesY :=
  ⟨h.reads_first l hl, fun hw => h.no_store hw l hl⟩

/-- A transaction of a lane keeps its old element exactly when it stores the new one. -/
theorem Lane.after_kept {x : Xact} {l : Lane} (h : l.before.isSome = l.stored) (v : Sample) :
    (l.after x v).before.isSome = (l.after x v).stored := by
  cases x with
  | readA j => exact h
  | readB j => exact h
  | store j => rfl

/-- R61, R68: the lanes after a transaction that fits keep their order, and the old elements of those stored. -/
theorem NextTransaction.lanes_moved {s : State} {r q : Run} {x : Xact} (h : NextTransaction s r q x) (l : Lane)
    (hl : l ∈ (q.moved s x).lanes) : l.Sound q.snap.op.writesY ∧ l.before.isSome = l.stored := by
  obtain ⟨l₀, hl₀, hf⟩ := h.fits
  have hmem := List.mem_of_getElem? hl₀
  rw [Run.moved, q.lanesAfter_eq_set x _ l₀ hl₀] at hl
  rcases List.mem_or_eq_of_mem_set hl with hl | rfl
  · exact ⟨h.legal.sound l hl, h.legal.kept l hl⟩
  · exact ⟨(Lane.after_fits (h.legal.sound l₀ hmem) hf _).1, Lane.after_kept (h.legal.kept l₀ hmem) _⟩

theorem Run.moved_length (q : Run) (s : State) (x : Xact) : (q.moved s x).lanes.length = q.lanes.length :=
  q.lanesAfter_length x _

/-- A strip with something left to do after a transaction is as legal as before it. -/
theorem NextTransaction.legal_moved {s : State} {r q : Run} {x : Xact} (h : NextTransaction s r q x)
    (hopen : (q.moved s x).lanes.all (Lane.finished q.snap.op.writesY) = false) : (q.moved s x).Legal s :=
  have hlen := q.moved_length s x
  have hlane := h.lanes_moved
  { h.legal with
    inside := fun hm => hlen.symm ▸ h.legal.inside hm
    no_strip := fun hm => List.eq_nil_of_length_eq_zero (by rw [hlen, h.legal.no_strip hm]; rfl)
    width := hlen.symm ▸ h.legal.width
    reference_width := fun hr => hlen.symm ▸ h.legal.reference_width hr
    reads_first := fun l hl => (hlane l hl).1.reads_first
    no_store := fun hw l hl => (hlane l hl).1.no_store hw
    kept := fun l hl => (hlane l hl).2
    unfinished := fun _ => hopen }

/-- R184: a report over lanes keeps the maximum at most 65535, and 0 exactly where the flag is set. -/
theorem laneReport_bound (ls : List Lane) (eq : Bool) (md : Nat) (hmd : md ≤ 65535) (heq : eq = true ↔ md = 0) :
    (laneReport ls eq md).2 ≤ 65535 ∧ ((laneReport ls eq md).1 = true ↔ (laneReport ls eq md).2 = 0) := by
  induction ls generalizing eq md with
  | nil => exact ⟨hmd, heq⟩
  | cons l ls ih =>
    simp only [laneReport]
    split
    · next a b _ _ =>
      obtain ⟨hle, hzero⟩ := absdiff_bound a b
      refine ih _ _ (by omega) ?_
      rw [Bool.and_eq_true, beq_iff_eq, heq, ← hzero]
      omega
    · exact ih eq md hmd heq

/-- R157: a strip that is closed leaves a legal run. -/
theorem NextTransaction.legal_closed {s : State} {r q : Run} {x : Xact} (h : NextTransaction s r q x) :
    (q.moved s x).closed.Legal ((s.moved q x).closeStrip (q.moved s x)) :=
  have hop : q.snap.op.isMemory = true := h.snap ▸ h.memory.isMemory
  have hlen := q.moved_length s x
  have hinside : s.processed.toNat + (q.moved s x).lanes.length ≤ q.snap.n.toNat := hlen.symm ▸ h.legal.inside hop
  have hp := (s.moved q x).closeStrip_processed (q.moved s x) _ hinside
  have hreport := laneReport_bound (q.moved s x).lanes q.eq q.md h.legal.md h.legal.eq_iff
  { h.legal with
    inside := fun _ => by
      rw [hp]
      exact hinside
    no_strip := fun _ => rfl
    width := Nat.zero_le _
    reference_width := fun _ => Nat.zero_le _
    reads_first := fun l hl => by simp [Run.closed] at hl
    no_store := fun _ l hl => by simp [Run.closed] at hl
    kept := fun l hl => by simp [Run.closed] at hl
    unfinished := fun hn => absurd rfl hn
    md := by
      simp only [Run.closed]
      split
      · exact hreport.1
      · exact h.legal.md
    eq_iff := by
      simp only [Run.closed]
      split
      · exact hreport.2
      · exact h.legal.eq_iff }

/-! ## The invariant from one state to the next -/

/-- COMPARE's report is the one of before, or that of a legal run (R39, R184). -/
def ReportKept (s t : State) : Prop :=
  (t.maxdiff = s.maxdiff ∧ t.status.equal = s.status.equal) ∨
    ∃ r : Run, r.Legal s ∧ t.maxdiff = BitVec.ofNat 32 r.md ∧ t.status.equal = r.eq

/-- What is left to show of a next state. -/
theorem State.Inv.next {s t : State} (h : s.Inv) (htarget : t.target = s.target) (hmem : Memory.wf t.mem)
    (hstatus : t.status.Legal) (hbusy : t.status.busy = t.run.isSome) (hrun : ∀ r, t.run = some r → r.Legal t)
    (hreport : ReportKept s t) : t.Inv where
  target := htarget ▸ h.target
  memory := hmem
  status := hstatus
  busy := hbusy
  running := hrun
  maxdiff := by
    rcases hreport with ⟨hmd, -⟩ | ⟨r, hr, hmd, -⟩ <;> rw [hmd]
    · exact h.maxdiff
    · have := hr.md
      rw [BitVec.toNat_ofNat]
      omega
  equal := by
    rcases hreport with ⟨hmd, heq⟩ | ⟨r, hr, hmd, heq⟩ <;> rw [hmd, heq]
    · exact h.equal
    · intro he
      rw [hr.eq_iff.mp he]
      rfl

/-- The running command goes on, and nothing of STATUS and of the report changes. -/
theorem State.Inv.goesOn {s t : State} (h : s.Inv) {r : Run} (hr : s.run = some r) {r' : Run} (hr' : t.run = some r')
    (hlegal : r'.Legal t) (htarget : t.target = s.target) (hmem : Memory.wf t.mem) (hstatus : t.status = s.status)
    (hmaxdiff : t.maxdiff = s.maxdiff) : t.Inv := by
  refine h.next htarget hmem (hstatus ▸ h.status) ?_ (fun r'' hr'' => ?_) (.inl ⟨hmaxdiff, by rw [hstatus]⟩)
  · rw [hstatus, h.busy_of_run hr, hr']
    rfl
  · cases hr'.symm.trans hr''
    exact hlegal

/-- The running command ends. -/
theorem State.Inv.ends {s t : State} (h : s.Inv) (hr : t.run = none) (htarget : t.target = s.target)
    (hmem : Memory.wf t.mem) (hstatus : t.status.Legal) (hbusy : t.status.busy = false) (hreport : ReportKept s t) :
    t.Inv :=
  h.next htarget hmem hstatus (by rw [hbusy, hr]; rfl) (fun r hr' => by simp [hr] at hr') hreport

/-- The controller and the strip are as they were. -/
theorem State.Inv.unitKept {s t : State} (h : s.Inv) (hrun : t.run = s.run) (htarget : t.target = s.target)
    (hmem : Memory.wf t.mem) (hstatus : t.status.Legal) (hbusy : t.status.busy = s.status.busy)
    (hequal : t.status.equal = s.status.equal) (hmaxdiff : t.maxdiff = s.maxdiff) (hp : t.processed = s.processed)
    (hloans : t.loans = s.loans ∨ s.run = none) : t.Inv := by
  refine h.next htarget hmem hstatus (by rw [hbusy, hrun, h.busy]) (fun r hr => ?_) (.inl ⟨hmaxdiff, hequal⟩)
  rw [hrun] at hr
  rcases hloans with hloans | hn
  · exact (h.running r hr).congr hp htarget hloans
  · exact absurd (hn.symm.trans hr) (by simp)

/-- R44, R68, R184: the own steps of a command keep the invariant. -/
theorem OwnStep.inv {s t : State} {r : Run} (hinv : s.Inv) (hr : s.run = some r) (h : OwnStep s r t) : t.Inv := by
  have hlegal := hinv.running r hr
  cases h with
  | mac hop =>
    obtain ⟨acc, c, d, heq⟩ := s.finishMac_eq r
    rw [heq]
    exact hinv.ends rfl rfl hinv.memory hinv.status.completed rfl (.inl ⟨rfl, rfl⟩)
  | clamp hop =>
    obtain ⟨acc, c, d, heq, -⟩ := s.finishClamp_eq r
    rw [heq]
    exact hinv.ends rfl rfl hinv.memory hinv.status.completed rfl (.inl ⟨rfl, rfl⟩)
  | chunk hop href hl hp hw =>
    have hopened := hlegal.openStrip hop.isMemory (min s.chunkAnswer (r.snap.n.toNat - s.processed.toNat))
      (by omega) (by omega) fun he => absurd he href
    exact hinv.goesOn hr rfl (hopened.congr rfl rfl rfl) rfl hinv.memory rfl rfl
  | moved q x hq hopen =>
    exact hinv.goesOn hr rfl ((hq.legal_moved hopen).congr rfl rfl rfl) rfl (s.memAfter_wf q x hinv.memory) rfl rfl
  | closed q x hq hfinished =>
    exact hinv.goesOn hr rfl hq.legal_closed rfl (s.memAfter_wf q x hinv.memory) rfl rfl
  | failed q x hq hresponse =>
    obtain ⟨m, c, d, hwf, ⟨-, -, heq⟩ | ⟨-, -, heq⟩⟩ :=
      s.afterChoice.afterResponse.busError_eq q (x.address q.snap s.processed.toNat) <;> rw [heq]
    · exact hinv.ends rfl rfl (hwf hinv.memory) (Status.legal_failed _ _) rfl (.inr ⟨q, hq.legal, rfl, rfl⟩)
    · exact hinv.ends rfl rfl (hwf hinv.memory) (Status.legal_failed _ _) rfl (.inl ⟨rfl, rfl⟩)
  | silent q x hq hresponse =>
    have hhung : { q with hung := true }.Legal s := { hq.legal with hung := fun _ => hq.snap ▸ hq.memory.isMemory }
    exact hinv.goesOn hr rfl (hhung.congr rfl rfl rfl) rfl hinv.memory rfl rfl
  | finish hop hl hp =>
    rcases s.finishMemory_eq r with ⟨-, heq⟩ | ⟨-, heq⟩ <;> rw [heq]
    · exact hinv.ends rfl rfl hinv.memory (hinv.status.withEqual _).completed rfl (.inr ⟨r, hlegal, rfl, rfl⟩)
    · exact hinv.ends rfl rfl hinv.memory hinv.status.completed rfl (.inl ⟨rfl, rfl⟩)

/-! ## Reset -/

/-- R47: the reset state keeps the invariant on every installation in range. -/
theorem State.inv_resetOn {t : Target} (h : t.wf = true) : (State.resetOn t).Inv where
  target := h
  memory := Memory.wf_nil
  status := { busy_alone := fun hb => (by cases hb), no_code := fun _ => rfl, code := fun he => (by cases he) }
  busy := rfl
  running := fun r hr => by cases hr
  maxdiff := Nat.zero_le _
  equal := fun _ => rfl

/-- R8: the open parameters of Config are in range. -/
theorem Config.target_wf : Config.target.wf = true := by
  unfold Config.target Target.wf Target.vlmaxInRange Target.vlmaxOneWithoutVector Target.baseAligned
  cases Config.hasVector <;> simp

/-- Settles O30: the reset state, on the installation of Config and on any other in range. -/
theorem resetKeepsInv : Obligations.ResetKeepsInv :=
  ⟨State.inv_resetOn Config.target_wf, fun _ => State.inv_resetOn⟩

/-- R230: the memory effect of an abandoned command. -/
theorem State.abandon_frame (s : State) :
    ∃ m c d, s.abandon = { s with mem := m, choices := c, drawn := d } ∧ (Memory.wf s.mem → Memory.wf m) := by
  unfold State.abandon
  split
  · next r _ =>
    obtain ⟨m, c, d, h, hwf, -⟩ := s.spill_frame r
    exact ⟨m, c, d, h, hwf⟩
  · exact ⟨s.mem, s.choices, s.drawn, rfl, id⟩

theorem State.Inv.resetUnit {s : State} (h : s.Inv) : s.resetUnit.Inv := by
  obtain ⟨m, c, d, heq, hwf⟩ := s.abandon_frame
  have hreset := State.inv_resetOn h.target
  exact { hreset with
    memory := by
      simp only [State.resetUnit, heq]
      exact hwf h.memory
    running := fun r hr => by cases hr }

/-! ## Every step -/

/-- R48: a read leaves the running command as it was, but for the PROCESSED it has shown. -/
theorem State.Inv.readReg {s : State} (h : s.Inv) (reg : Reg) : (s.readReg reg).Inv := by
  cases hr : s.run with
  | none =>
    exact h.unitKept (by simp [hr]) (by simp) (by simpa using h.memory) (by simpa using h.status) (by simp) (by simp)
      (by simp) (by simp) (.inr hr)
  | some r =>
    have hlegal := h.running r hr
    have hbusy := h.busy_of_run hr
    obtain ⟨-, hseen⟩ := State.processedRead_bounds hr hlegal.seen
    have hloans : (s.readReg reg).loans = s.loans := by simp [hbusy]
    by_cases hreg : reg = .processed
    · exact h.goesOn hr (r' := r.withSeen s.processedRead) (by simp [hreg, hr])
        ((hlegal.withHost _ r.accRaced hseen hlegal.raced).congr (by simp) (by simp) hloans) (by simp)
        (by simpa using h.memory) (by simp) (by simp)
    · exact h.unitKept (by simp [hreg]) (by simp) (by simpa using h.memory) (by simpa using h.status) (by simp)
        (by simp) (by simp) (by simp) (.inl hloans)

/-- R49: a register write leaves the running command as it was, but for the mark of a write to ACC. -/
theorem State.Inv.writeReg {s : State} (h : s.Inv) (reg : Reg) (w : Word) : (s.writeReg reg w).Inv := by
  have hstatus : (s.writeReg reg w).status.Legal := by
    rw [State.writeReg_status]
    split
    · exact h.status.acknowledge w
    · exact h.status
  refine h.next (by simp) (by simpa using h.memory) hstatus ?_ (fun r hr => ?_) (.inl ⟨by simp, ?_⟩)
  · rw [State.writeReg_status, State.writeReg_run]
    split <;> split <;> simp [h.busy]
  · rw [State.writeReg_run] at hr
    split at hr
    · obtain ⟨r₀, hr₀, rfl⟩ := Option.map_eq_some_iff.mp hr
      have hlegal := h.running r₀ hr₀
      rw [Run.raceAcc_eq]
      refine (hlegal.withHost r₀.seen _ hlegal.seen fun hraced => ?_).congr (by simp) (by simp) (by simp)
      rcases Bool.or_eq_true_iff.mp hraced with hraced | hraced
      · exact hlegal.raced hraced
      · exact of_decide_eq_true hraced
    · exact (h.running r hr).congr (by simp) (by simp) (by simp)
  · rw [State.writeReg_status]
    split <;> rfl

/-- R28, R44: what a step can do keeps the invariant. -/
theorem StepOf.inv {s t : State} (hinv : s.Inv) (h : StepOf s t) : t.Inv := by
  cases h with
  | quiet => exact hinv
  | idle rest => exact hinv.withAgenda rest
  | own rest r _ ha hr hlive h => exact h.inv (hinv.withTurn rest .unit) hr
  | stuck rest => exact hinv.withTurn rest .unit
  | reset rest => exact (hinv.withAgenda rest).resetUnit
  | write o w rest reg => exact (hinv.withAgenda rest).writeReg reg w
  | nop w rest => exact hinv.withTurn rest .host
  | dropped w rest =>
    exact (hinv.withTurn rest .host).unitKept rfl rfl hinv.memory hinv.status.overrun rfl rfl rfl rfl (.inl rfl)
  | illegal w rest why hw hd hb =>
    exact hinv.ends rfl rfl hinv.memory (Status.legal_failed _ _) rfl (.inl ⟨rfl, rfl⟩)
  | rejected w rest i code addr =>
    exact hinv.ends rfl rfl hinv.memory (Status.legal_failed _ _) rfl (.inl ⟨rfl, rfl⟩)
  | accepted w rest i hw hd hi hb he hplaced =>
    refine hinv.next rfl hinv.memory (Status.legal_accepted _) rfl (fun r hr => ?_) (.inl ⟨rfl, rfl⟩)
    cases hr
    exact Run.Legal.start hi he (fun hm => by simp [hm]) fun hm => by simp [hm]
  | read o rest reg => exact (hinv.withAgenda rest).readReg reg
  | waitIdle rest => exact (hinv.withAgenda rest).readReg .status
  | waitBusy rest r => exact ((hinv.withAgenda rest).readReg .status).withAgenda _
  | irqSample rest =>
    refine (hinv.withAgenda rest).unitKept rfl rfl hinv.memory hinv.status rfl rfl rfl rfl ?_
    cases hirq : { s with agenda := rest }.irq with
    | false => exact .inl (by simp [State.hostIrqSample, hirq])
    | true =>
      have hdone : s.status.done = true := (Bool.and_eq_true_iff.mp hirq).2
      refine .inr (hinv.run_of_idle (Bool.eq_false_iff.mpr fun hb => ?_))
      exact absurd (hdone.symm.trans (hinv.status.busy_alone hb).1) (by decide)
  | store e v rest =>
    exact (hinv.withAgenda rest).unitKept rfl rfl (Memory.writeSample_wf _ hinv.memory _ _) hinv.status rfl rfl rfl rfl
      (.inl rfl)
  | load e rest =>
    exact (hinv.withAgenda rest).unitKept rfl rfl hinv.memory hinv.status rfl rfl rfl rfl (.inl rfl)

/-- Settles O47: a step is one of those of `StepOf`, and each keeps the invariant. -/
theorem stepKeepsInv : Obligations.StepKeepsInv :=
  fun _ _ hinv h => (StepOf.of_step hinv h).inv hinv

end Sys2Proof.Machine
end

section
/-! PROOFS. What an abandoned strip leaves in memory, and what every step keeps while an AXPY command or a COMPARE runs
(R132, R158, R180, R209, R230). -/

namespace Sys2Proof.Machine

/-! ## An abandoned strip, lane by lane (R209, R230) -/

/-- What abandoning a lane may leave of its element of y, which held `old`: the result, where both samples were read;
what it held before its store; or `old` itself. -/
def Lane.AbandonedAs (alpha : Sample) (l : Lane) (old new : Sample) : Prop :=
  l.result alpha = some new ∨ (l.result alpha ≠ none ∧ l.before = some new) ∨
    ((l.result alpha = none ∨ l.before = none) ∧ new = old)

/-- Abandoning a strip abandons its first lane, and then the others. -/
theorem spillFrom_cons (k : Snapshot) (p j : Nat) (l : Lane) (ls : List Lane) (s : State) (hwf : Memory.wf s.mem)
    (hholds : Memory.holds (elem k.yAddr (p + j)) = true) :
    ∃ u : State, spillFrom k p j (l :: ls) s = spillFrom k p (j + 1) ls u ∧ Memory.wf u.mem ∧
      (∀ a, a ≠ elem k.yAddr (p + j) ∧ a ≠ elem k.yAddr (p + j) + 1 →
        Memory.readByte u.mem a = Memory.readByte s.mem a) ∧
      l.AbandonedAs k.alpha (Memory.readSample s.mem (elem k.yAddr (p + j)))
        (Memory.readSample u.mem (elem k.yAddr (p + j))) := by
  cases hres : l.result k.alpha with
  | none => exact ⟨s, by simp only [spillFrom, hres], hwf, fun _ _ => rfl, .inr (.inr ⟨.inl hres, rfl⟩)⟩
  | some v =>
    refine ⟨{ s.afterChoice with mem := l.abandon s.mem (elem k.yAddr (p + j)) v (decide (s.choice % 2 = 1)) },
      by simp only [spillFrom, hres], Lane.abandon_wf l _ hwf _ _ _, ?_⟩
    dsimp only
    rcases l.abandon_cases s.mem (elem k.yAddr (p + j)) v (decide (s.choice % 2 = 1)) with
      ⟨-, hc⟩ | ⟨-, old, hold, hc⟩ | ⟨-, hnone, hc⟩ <;> rw [hc]
    · rw [Memory.readSample_writeSample _ hwf _ _ hholds]
      exact ⟨fun a ha => Memory.readByte_writeSample_other _ hwf _ _ _ ha, .inl hres⟩
    · rw [Memory.readSample_writeSample _ hwf _ _ hholds]
      exact ⟨fun a ha => Memory.readByte_writeSample_other _ hwf _ _ _ ha, .inr (.inl ⟨by simp [hres], hold⟩)⟩
    · exact ⟨fun _ _ => rfl, .inr (.inr ⟨.inr hnone, rfl⟩)⟩

/-- What abandoning the lanes from element p + j on leaves: nothing outside their elements of y changes, and each of
these is left as its lane may be. -/
theorem spillFrom_leaves (k : Snapshot) (p : Nat) (ls : List Lane) (j : Nat) (s : State) (hwf : Memory.wf s.mem)
    (hholds : ∀ i, i < ls.length → Memory.holds (elem k.yAddr (p + (j + i))) = true) :
    (∀ a, a < elem k.yAddr (p + j) ∨ elem k.yAddr (p + (j + ls.length)) ≤ a →
      Memory.readByte (spillFrom k p j ls s).mem a = Memory.readByte s.mem a) ∧
    ∀ (i : Nat) (l : Lane), ls[i]? = some l →
      l.AbandonedAs k.alpha (Memory.readSample s.mem (elem k.yAddr (p + (j + i))))
        (Memory.readSample (spillFrom k p j ls s).mem (elem k.yAddr (p + (j + i)))) := by
  induction ls generalizing j s with
  | nil => exact ⟨fun _ _ => rfl, fun i l hl => by simp at hl⟩
  | cons l ls ih =>
    obtain ⟨u, heq, huwf, huother, huown⟩ := spillFrom_cons k p j l ls s hwf (hholds 0 (by simp))
    obtain ⟨hout, hlanes⟩ := ih (j + 1) u huwf fun i hi => by
      rw [Nat.add_right_comm]
      exact hholds (i + 1) (by simpa using hi)
    rw [heq]
    refine ⟨fun a ha => ?_, fun i l' hl' => ?_⟩
    · simp only [List.length_cons, elem] at ha hout huother
      rw [hout a (by omega), huother a (by omega)]
    · cases i with
      | zero =>
        obtain rfl : l = l' := by simpa using hl'
        have hkept : Memory.readSample (spillFrom k p (j + 1) ls u).mem (elem k.yAddr (p + j)) =
            Memory.readSample u.mem (elem k.yAddr (p + j)) := by
          apply Memory.readSample_congr <;> apply hout <;> simp only [elem] <;> omega
        rw [Nat.add_zero, hkept]
        exact huown
      | succ i =>
        have hlater := hlanes i l' (by simpa using hl')
        have hkept : Memory.readSample u.mem (elem k.yAddr (p + (j + 1 + i))) =
            Memory.readSample s.mem (elem k.yAddr (p + (j + 1 + i))) := by
          apply Memory.readSample_congr <;> apply huother <;> simp only [elem] <;> omega
        rw [hkept, Nat.add_right_comm] at hlater
        exact hlater

/-- R209, R230: abandoning an AXPY command under way leaves each element of its open strip old or new. -/
theorem AxpyProgress.abandoned {m : Memory} {s u : State} {q : Run} (h : AxpyProgress m s q) (hop : IsAxpy q.snap.op)
    (hlegal : q.Legal s) (hwf : Memory.wf s.mem) (hu : u.mem = (s.spill q).mem) : AxpyAbandoned m s q u := by
  have hinside := hlegal.inside hop.isMemory
  obtain ⟨hout, hlanes⟩ := spillFrom_leaves q.snap s.processed.toNat q.lanes 0 s hwf fun i hi =>
    q.snap.holds_elem hop.isMemory hlegal.checked _ (q.snap.yAddr_mem_bases hop.writesY) _ (by omega)
  have hspill : s.spill q = spillFrom q.snap s.processed.toNat 0 q.lanes s := if_pos hop.writesY
  rw [← hspill, ← hu] at hout hlanes
  simp only [Nat.zero_add, Nat.add_zero] at hout hlanes
  have helem : ∀ i, i < s.processed.toNat ∨ s.processed.toNat + q.lanes.length ≤ i →
      Memory.readSample u.mem (elem q.snap.yAddr i) = Memory.readSample s.mem (elem q.snap.yAddr i) := by
    intro i hi
    apply Memory.readSample_congr <;> apply hout <;> simp only [elem] <;> omega
  have hold : ∀ j l, q.lanes[j]? = some l → l.stored = false ∧
      Memory.readSample u.mem (elem q.snap.yAddr (s.processed.toNat + j)) =
        Memory.readSample s.mem (elem q.snap.yAddr (s.processed.toNat + j)) →
      yOld m q.snap u (s.processed.toNat + j) := fun j l hl ⟨hst, hsame⟩ =>
    hsame.trans ((h.lanes j l hl).unstored hst)
  refine ⟨fun i hi => (helem i (.inl hi)).trans (h.completed i hi), fun j l hl => ?_, fun j l hl hunread => ?_,
    fun i hi hn => (helem i (.inr hi)).trans (h.ahead i hi hn), fun a ha => ?_⟩
  · have hlane := h.lanes j l hl
    rcases hlanes j l hl with hres | ⟨-, hbefore⟩ | ⟨-, hsame⟩
    · have hread : l.a.isSome = true ∧ l.b.isSome = true := by
        unfold Lane.result at hres
        split at hres
        · simp [*]
        · cases hres
      obtain ⟨a, b, ha, hb, hres'⟩ := l.result_isSome q.snap.alpha hread.1 hread.2
      right
      rw [yNew, ← Option.some.inj (hres'.symm.trans hres), hlane.a a ha, hlane.b b hb, axpyElement]
    · exact .inl (hlane.before _ hbefore)
    · cases hst : l.stored with
      | true => exact .inr (hsame.trans (hlane.stored hst))
      | false => exact .inl (hold j l hl ⟨hst, hsame⟩)
  · have hnone : l.result q.snap.alpha = none := by
      unfold Lane.result
      rcases hunread with hn | hn <;> simp [hn]
    refine hold j l hl ⟨(hlegal.sound l (List.mem_of_getElem? hl)).not_stored hunread, ?_⟩
    rcases hlanes j l hl with hres | ⟨hres, -⟩ | ⟨-, hsame⟩
    · simp [hnone] at hres
    · exact absurd hnone hres
    · exact hsame
  · rw [hout a ?_]
    · exact h.outside a ha
    · simp only [inBuffer, Snapshot.bytes, elem] at *
      omega

/-- Where the failed transaction was the first of a strip of one element, the strip it opened is old. -/
theorem AxpyAbandoned.of_nextStrip {m : Memory} {s t : State} {r q : Run} (h : AxpyAbandoned m s q t)
    (hstrip : r.NextStrip s q) : AxpyAbandoned m s r t := by
  rcases hstrip with ⟨-, rfl⟩ | ⟨hl, -, rfl⟩
  · exact h
  · refine ⟨h.completed, fun j l hj => by simp [hl] at hj, fun j l hj => by simp [hl] at hj, fun i hi hn => ?_,
      h.outside⟩
    by_cases hi' : i = s.processed.toNat
    · subst hi'
      exact h.unread 0 Lane.fresh rfl (.inl rfl)
    · refine h.ahead i ?_ hn
      simp only [hl, List.length_nil, Run.openStrip_lanes, List.length_replicate] at hi ⊢
      omega

/-! ## A command under way rests on its snapshot and its strip -/

theorem AxpyProgress.congrRun {m : Memory} {s : State} {r r' : Run} (h : AxpyProgress m s r) (hk : r'.snap = r.snap)
    (hl : r'.lanes = r.lanes) : AxpyProgress m s r' := by
  obtain ⟨hcompleted, hlanes, hahead, hout⟩ := h
  refine ⟨?_, fun j l hj => (hlanes j l (hl ▸ hj)).congr rfl hk rfl, ?_, ?_⟩ <;> rw [hk]
  · exact hcompleted
  · rw [hl]
    exact hahead
  · exact hout

theorem CompareProgress.congrRun {m : Memory} {s : State} {r r' : Run} (h : CompareProgress m s r)
    (hk : r'.snap = r.snap) (hl : r'.lanes = r.lanes) (he : r'.eq = r.eq) (hm : r'.md = r.md) :
    CompareProgress m s r' := by
  obtain ⟨hmem, ha, hb, heq, hmd⟩ := h
  refine ⟨hmem, ?_, ?_, ?_, hm.trans (hk ▸ hmd)⟩
  · rwa [hk, hl]
  · rwa [hk, hl]
  · rwa [hk, he]

/-- The strip of the next transaction is under way as the command is. -/
theorem AxpyProgress.nextStrip {m : Memory} {s : State} {r q : Run} (h : AxpyProgress m s r)
    (hstrip : r.NextStrip s q) : AxpyProgress m s q := by
  rcases hstrip with ⟨-, rfl⟩ | ⟨hl, hp, rfl⟩
  · exact h
  · exact h.openStrip hl 1 hp

theorem CompareProgress.nextStrip {m : Memory} {s : State} {r q : Run} (h : CompareProgress m s r)
    (hstrip : r.NextStrip s q) : CompareProgress m s q := by
  rcases hstrip with ⟨-, rfl⟩ | ⟨-, -, rfl⟩
  · exact h
  · exact h.openStrip 1

/-! ## The own steps -/

/-- R132, R158, R209: what an own step makes of an AXPY command under way. -/
theorem OwnStep.axpyProgress {m : Memory} {s t : State} {r : Run} (hinv : s.Inv) (hr : s.run = some r)
    (hop : IsAxpy r.snap.op) (hprogress : AxpyProgress m s r) (h : OwnStep s r t) :
    (∃ r', t.run = some r' ∧ r'.snap = r.snap ∧ AxpyProgress m t r') ∨
    (Succeeded t ∧ t.processed = r.snap.n ∧ (∀ i, i < r.snap.n.toNat → yNew m r.snap t i) ∧ OutsideYKept m r.snap t) ∨
    (t.run = none ∧ t.status.err = true ∧ t.status.errcode = 5 ∧ t.processed = s.processed ∧
      AxpyAbandoned m s r t) := by
  have hne : r.snap.op ≠ .compare := by rcases hop with h | h <;> simp [h]
  have hmoved : ∀ q x, NextTransaction s r q x → IsAxpy q.snap.op ∧
      s.processed.toNat + q.lanes.length ≤ q.snap.n.toNat ∧ AxpyProgress m (s.moved q x) (q.moved s x) := by
    intro q x hq
    obtain ⟨l, hl, hf⟩ := hq.fits
    have hopq : IsAxpy q.snap.op := by rw [hq.snap]; exact hop
    have hinside := hq.legal.inside hopq.isMemory
    exact ⟨hopq, hinside, (hprogress.nextStrip hq.strip).transaction hopq hq.legal.checked hinv.memory hinside hl
      (hq.legal.sound l (List.mem_of_getElem? hl)) hf (s.moved q x) rfl rfl⟩
  cases h with
  | mac h => rcases hop with hop | hop <;> simp [hop] at h
  | clamp h => rcases hop with hop | hop <;> simp [hop] at h
  | chunk _ _ hl hp _ =>
    exact .inl ⟨_, rfl, rfl, (hprogress.openStrip hl _ (by omega)).congr rfl rfl⟩
  | moved q x hq hopen => exact .inl ⟨_, rfl, hq.snap, (hmoved q x hq).2.2.congr rfl rfl⟩
  | closed q x hq hfinished =>
    obtain ⟨hopq, hinside, hp⟩ := hmoved q x hq
    exact .inl ⟨_, rfl, hq.snap, hp.closeStrip hopq (q.moved_length s x ▸ hinside) hfinished⟩
  | failed q x hq hresponse =>
    obtain ⟨hopq, -, -⟩ := hmoved q x hq
    have hprogress' : AxpyProgress m s.afterChoice.afterResponse q := (hprogress.nextStrip hq.strip).congr rfl rfl
    obtain ⟨mem, c, d, -, ⟨hc, -⟩ | ⟨-, hmem, heq⟩⟩ :=
      s.afterChoice.afterResponse.busError_eq q (x.address q.snap s.processed.toNat)
    · exact absurd (hq.snap ▸ hc) hne
    · rw [heq]
      have habandoned := hprogress'.abandoned (u := { s with mem := mem }) hopq (hq.legal.congr rfl rfl rfl)
        hinv.memory hmem
      exact .inr (.inr ⟨rfl, rfl, rfl, rfl, AxpyAbandoned.of_nextStrip
        ⟨habandoned.completed, habandoned.either, habandoned.unread, habandoned.ahead, habandoned.outside⟩ hq.strip⟩)
  | silent q x hq hresponse =>
    exact .inl ⟨_, rfl, hq.snap, ((hprogress.nextStrip hq.strip).congrRun (r' := { q with hung := true }) rfl rfl).congr
      rfl rfl⟩
  | finish _ _ hp =>
    obtain ⟨hc, -⟩ | ⟨-, heq⟩ := s.finishMemory_eq r
    · exact absurd hc hne
    · rw [heq]
      have herr : s.status.err = false := (hinv.status.busy_alone (hinv.busy_of_run hr)).2
      exact .inr (.inl ⟨⟨rfl, herr⟩, hp, hp ▸ hprogress.completed, hprogress.outside⟩)

/-- R180, R209: what an own step makes of a COMPARE under way. -/
theorem OwnStep.compareProgress {m : Memory} {s t : State} {r : Run} (hinv : s.Inv) (hr : s.run = some r)
    (hop : r.snap.op = .compare) (hprogress : CompareProgress m s r) (h : OwnStep s r t) :
    t.mem = m ∧
    ((∃ r', t.run = some r' ∧ r'.snap = r.snap ∧ CompareProgress m t r') ∨
     (Succeeded t ∧ t.processed = r.snap.n ∧ (t.status.equal = true ↔ allEqual m r.snap r.snap.n.toNat) ∧
       t.maxdiff.toNat = maxDistance m r.snap r.snap.n.toNat) ∨
     (t.run = none ∧ t.status.err = true ∧ t.status.errcode = 5 ∧ t.processed = s.processed ∧
       (t.status.equal = true ↔ allEqual m r.snap s.processed.toNat) ∧
       t.maxdiff.toNat = maxDistance m r.snap s.processed.toNat)) := by
  have hmoved : ∀ q x, NextTransaction s r q x →
      q.snap.op = .compare ∧ CompareProgress m (s.moved q x) (q.moved s x) := by
    intro q x hq
    obtain ⟨l, hl, hf⟩ := hq.fits
    have hopq : q.snap.op = .compare := by rw [hq.snap]; exact hop
    exact ⟨hopq, (hprogress.nextStrip hq.strip).transaction hopq hl hf (s.moved q x) rfl rfl⟩
  have hgoes : ∀ r', t.run = some r' → r'.snap = r.snap → CompareProgress m t r' → t.mem = m ∧
      ∃ r', t.run = some r' ∧ r'.snap = r.snap ∧ CompareProgress m t r' :=
    fun r' hr' hk hp => ⟨hp.mem, r', hr', hk, hp⟩
  have hreport : ∀ q : Run, q.md ≤ 65535 → CompareProgress m s q → (BitVec.ofNat 32 q.md).toNat =
      maxDistance m q.snap s.processed.toNat := by
    intro q hmd hp
    rw [BitVec.toNat_ofNat, Nat.mod_eq_of_lt (by omega), hp.md]
  cases h with
  | mac h => simp [hop] at h
  | clamp h => simp [hop] at h
  | chunk _ _ _ _ _ => exact (hgoes _ rfl rfl ((hprogress.openStrip _).congr rfl rfl)).imp_right .inl
  | moved q x hq hopen => exact (hgoes _ rfl hq.snap ((hmoved q x hq).2.congr rfl rfl)).imp_right .inl
  | closed q x hq hfinished =>
    obtain ⟨hopq, hp⟩ := hmoved q x hq
    have hinside : s.processed.toNat + (q.moved s x).lanes.length ≤ q.snap.n.toNat :=
      (q.moved_length s x).symm ▸ hq.legal.inside (by rw [hopq]; rfl)
    exact (hgoes _ rfl hq.snap (hp.closeStrip hopq hinside hfinished)).imp_right .inl
  | failed q x hq hresponse =>
    obtain ⟨hopq, -⟩ := hmoved q x hq
    have hp := hprogress.nextStrip hq.strip
    obtain ⟨mem, c, d, -, ⟨-, rfl, heq⟩ | ⟨hc, -⟩⟩ :=
      s.afterChoice.afterResponse.busError_eq q (x.address q.snap s.processed.toNat)
    · rw [heq, ← hq.snap]
      exact ⟨hprogress.mem, .inr (.inr ⟨rfl, rfl, rfl, rfl, hp.eq, hreport q hq.legal.md hp⟩)⟩
    · exact absurd hopq hc
  | silent q x hq hresponse =>
    exact (hgoes _ rfl hq.snap (((hprogress.nextStrip hq.strip).congrRun (r' := { q with hung := true })
      rfl rfl rfl rfl).congr rfl rfl)).imp_right .inl
  | finish _ _ hp =>
    obtain ⟨-, heq⟩ | ⟨hc, -⟩ := s.finishMemory_eq r
    · rw [heq]
      have herr : s.status.err = false := (hinv.status.busy_alone (hinv.busy_of_run hr)).2
      exact ⟨hprogress.mem, .inr (.inl ⟨⟨rfl, herr⟩, hp, hp ▸ hprogress.eq,
        hp ▸ hreport r (hinv.running r hr).md hprogress⟩)⟩
    · exact absurd hop hc

/-! ## The steps of the surroundings while a command runs -/

/-- What the surroundings leave of a running command, but by reset or by their own store (R49): the snapshot, the strip,
the report, PROCESSED and the memory. -/
structure CommandKept (s : State) (r : Run) (t : State) : Prop where
  mem : t.mem = s.mem
  processed : t.processed = s.processed
  run : ∃ seen raced, t.run = some { r with seen := seen, accRaced := raced }

/-- The memory a command was accepted with, after the next event: a host store changes it. -/
def storedByHost (m : Memory) : List Event → Memory
  | .memWrite e v :: _ => Memory.writeSample m e v
  | _ => m

theorem CommandKept.of_run {s t : State} {r : Run} (hr : s.run = some r) (hmem : t.mem = s.mem)
    (hp : t.processed = s.processed) (hrun : t.run = s.run) : CommandKept s r t :=
  ⟨hmem, hp, r.seen, r.accRaced, hrun.trans hr⟩

theorem CommandKept.readReg {s : State} {r : Run} (hr : s.run = some r) (reg : Reg) :
    CommandKept s r (s.readReg reg) := by
  refine ⟨by simp, by simp, if reg = .processed then s.processedRead else r.seen, r.accRaced, ?_⟩
  rw [State.readReg_run]
  split <;> simp [hr, Run.withSeen]

theorem CommandKept.writeReg {s : State} {r : Run} (hr : s.run = some r) (reg : Reg) (w : Word) :
    CommandKept s r (s.writeReg reg w) := by
  refine ⟨by simp, by simp, r.seen,
    if reg = .acc then r.accRaced || decide (r.snap.op = .mac ∨ r.snap.op = .clamp) else r.accRaced, ?_⟩
  rw [State.writeReg_run]
  split <;> simp [hr, Run.raceAcc_eq]

theorem CommandKept.axpyProgress {m : Memory} {s t : State} {r : Run} (h : CommandKept s r t)
    (hp : AxpyProgress m s r) : ∃ r', t.run = some r' ∧ r'.snap = r.snap ∧ AxpyProgress m t r' := by
  obtain ⟨hmem, hprocessed, seen, raced, hrun⟩ := h
  exact ⟨_, hrun, rfl, (hp.congrRun (r' := { r with seen := seen, accRaced := raced }) rfl rfl).congr hmem hprocessed⟩

theorem CommandKept.compareProgress {m : Memory} {s t : State} {r : Run} (h : CommandKept s r t)
    (hp : CompareProgress m s r) : ∃ r', t.run = some r' ∧ r'.snap = r.snap ∧ CompareProgress m t r' := by
  obtain ⟨hmem, hprocessed, seen, raced, hrun⟩ := h
  exact ⟨_, hrun, rfl,
    (hp.congrRun (r' := { r with seen := seen, accRaced := raced }) rfl rfl rfl rfl).congr hmem hprocessed⟩

/-- R7, R49: what a step can be while a command runs. Only the host's own store changes the memory accepted with. -/
theorem StepOf.while_running {s t : State} {r : Run} (hinv : s.Inv) (hr : s.run = some r) (h : StepOf s t)
    (m : Memory) :
    (storedByHost m s.agenda = m ∧
      ((∃ rest, OwnStep { s with agenda := rest, turn := .unit } r t) ∨
       (∃ rest, s.agenda = .reset :: rest ∧ t = { s with agenda := rest }.resetUnit) ∨
       CommandKept s r t)) ∨
    ∃ e v rest, storedByHost m s.agenda = Memory.writeSample m e v ∧ Memory.holds e = true ∧
      s.loans.any (·.lendsForWrite e) = false ∧ t = { s with agenda := rest, mem := Memory.writeSample s.mem e v } := by
  have hbusy := hinv.busy_of_run hr
  have hkept : storedByHost m s.agenda = m → CommandKept s r t → (storedByHost m s.agenda = m ∧
      ((∃ rest, OwnStep { s with agenda := rest, turn := .unit } r t) ∨
       (∃ rest, s.agenda = .reset :: rest ∧ t = { s with agenda := rest }.resetUnit) ∨ CommandKept s r t)) :=
    fun hm hk => ⟨hm, .inr (.inr hk)⟩
  have hwrite : ∀ {o w rest}, s.writesNext o w rest → storedByHost m s.agenda = m := by
    rintro o w rest ⟨place, -, ha⟩
    rw [ha]
    rfl
  cases h with
  | quiet _ hn => simp [hr] at hn
  | idle _ _ hn => simp [hr] at hn
  | own rest r' _ ha hr' _ h =>
    obtain rfl : r' = r := Option.some.inj (hr'.symm.trans hr)
    refine .inl ⟨?_, .inl ⟨rest, h⟩⟩
    rcases ha with ⟨ha, -⟩ | ha <;> rw [ha] <;> rfl
  | stuck rest r' ha => exact .inl (hkept (by rw [ha]; rfl) (.of_run hr rfl rfl rfl))
  | reset rest ha => exact .inl ⟨by rw [ha]; rfl, .inr (.inl ⟨rest, ha, rfl⟩)⟩
  | write o w rest reg hw =>
    obtain ⟨hmem, hp, hrun⟩ := CommandKept.writeReg (s := { s with agenda := rest }) hr reg w
    exact .inl (hkept (hwrite hw) ⟨hmem, hp, hrun⟩)
  | nop w rest hw => exact .inl (hkept (hwrite hw) (.of_run hr rfl rfl rfl))
  | dropped w rest hw => exact .inl (hkept (hwrite hw) (.of_run hr rfl rfl rfl))
  | illegal w rest why hw hd hb => simp [hbusy] at hb
  | rejected w rest i code addr hw hd hi hb => simp [hbusy] at hb
  | accepted w rest i hw hd hi hb => simp [hbusy] at hb
  | read o rest reg hread =>
    obtain ⟨place, -, ha⟩ := hread
    obtain ⟨hmem, hp, hrun⟩ := CommandKept.readReg (s := { s with agenda := rest }) hr reg
    exact .inl (hkept (by rw [ha]; rfl) ⟨hmem, hp, hrun⟩)
  | waitIdle rest ha hn => simp [hr] at hn
  | waitBusy rest r' ha =>
    exact .inl (hkept (by rw [ha]; rfl) (.of_run hr (by simp) (by simp) (by simp)))
  | irqSample rest ha => exact .inl (hkept (by rw [ha]; rfl) (.of_run hr rfl rfl rfl))
  | store e v rest ha hholds hfree => exact .inr ⟨e, v, rest, by rw [ha]; rfl, hholds, hfree, rfl⟩
  | load e rest ha => exact .inl (hkept (by rw [ha]; rfl) (.of_run hr rfl rfl rfl))

/-- R70 item 4: a host store that is no race leaves every element of the buffers lent alone. -/
theorem readSample_of_not_lent {m : Memory} {k : Snapshot} {e : Nat} (hwf : Memory.wf m)
    (hfree : k.lendsForWrite e = false) (v : Sample) (b : Word) (hb : b ∈ k.bases) (i : Nat) (hi : i < k.n.toNat) :
    Memory.readSample (Memory.writeSample m e v) (elem b i) = Memory.readSample m (elem b i) := by
  have hapart : rangesMeet e 2 b.toNat k.bytes = false := by
    simpa using (List.any_eq_false.mp hfree) b hb
  rw [rangesMeet_eq_false] at hapart
  apply Memory.readSample_writeSample_other m hwf
  simp only [Snapshot.bytes, elem] at *
  omega

/-- R70 item 4, R132: a host store that is no race is a store to the memory the command was accepted with. -/
theorem AxpyProgress.hostStore {m : Memory} {s t : State} {r : Run} (h : AxpyProgress m s r) (hop : IsAxpy r.snap.op)
    (hlegal : r.Legal s) (hm : Memory.wf m) (hs : Memory.wf s.mem) {e : Nat} (hholds : Memory.holds e = true)
    (hfree : r.snap.lendsForWrite e = false) (v : Sample) (hmem : t.mem = Memory.writeSample s.mem e v)
    (hp : t.processed = s.processed) : AxpyProgress (Memory.writeSample m e v) t r := by
  have hinside := hlegal.inside hop.isMemory
  have ha := readSample_of_not_lent hm hfree v r.snap.aAddr r.snap.aAddr_mem_bases
  have hb := readSample_of_not_lent hm hfree v r.snap.bAddr r.snap.bAddr_mem_bases
  have hy := readSample_of_not_lent hm hfree v r.snap.yAddr (r.snap.yAddr_mem_bases hop.writesY)
  have hy' := readSample_of_not_lent hs hfree v r.snap.yAddr (r.snap.yAddr_mem_bases hop.writesY)
  have hnew : ∀ i, i < r.snap.n.toNat → yNew m r.snap s i → yNew (Memory.writeSample m e v) r.snap t i := by
    intro i hi h
    rw [yNew, hmem, axpyElement, hy' i hi, ha i hi, hb i hi]
    exact h
  have hold : ∀ i, i < r.snap.n.toNat → yOld m r.snap s i → yOld (Memory.writeSample m e v) r.snap t i := by
    intro i hi h
    rw [yOld, hmem, hy' i hi, hy i hi]
    exact h
  refine ⟨fun i hi => ?_, fun j l hl => ?_, fun i hi hn => hold i hn (h.ahead i (hp ▸ hi) hn), fun a hout => ?_⟩
  · rw [hp] at hi
    exact hnew i (by omega) (h.completed i hi)
  · have hj : s.processed.toNat + j < r.snap.n.toNat := by
      have := (List.getElem?_eq_some_iff.mp hl).1
      omega
    have hlane := h.lanes j l hl
    constructor <;> rw [hp]
    · rw [ha _ hj]
      exact hlane.a
    · rw [hb _ hj]
      exact hlane.b
    · exact fun hst => hnew _ hj (hlane.stored hst)
    · rw [hy _ hj]
      exact hlane.before
    · exact fun hst => hold _ hj (hlane.unstored hst)
  · have hsize : e + 2 ≤ Memory.size := of_decide_eq_true hholds
    rw [hmem]
    simp only [Memory.writeSample]
    rw [Memory.readByte_writeByte _ (Memory.writeByte_wf _ hs _ _) _ _ _ (by omega),
      Memory.readByte_writeByte _ (Memory.writeByte_wf _ hm _ _) _ _ _ (by omega),
      Memory.readByte_writeByte _ hs _ _ _ (by omega), Memory.readByte_writeByte _ hm _ _ _ (by omega),
      h.outside a hout]

theorem CompareProgress.hostStore {m : Memory} {s t : State} {r : Run} (h : CompareProgress m s r)
    (hop : r.snap.op = .compare) (hlegal : r.Legal s) (hs : Memory.wf s.mem) {e : Nat}
    (hfree : r.snap.lendsForWrite e = false) (v : Sample) (hmem : t.mem = Memory.writeSample s.mem e v)
    (hp : t.processed = s.processed) : CompareProgress (Memory.writeSample m e v) t r := by
  have hinside := hlegal.inside (by rw [hop]; rfl)
  obtain ⟨rfl, hla, hlb, heq, hmd⟩ := h
  have ha := readSample_of_not_lent hs hfree v r.snap.aAddr r.snap.aAddr_mem_bases
  have hb := readSample_of_not_lent hs hfree v r.snap.bAddr r.snap.bAddr_mem_bases
  have hlane : ∀ j l, r.lanes[j]? = some l → s.processed.toNat + j < r.snap.n.toNat := by
    intro j l hl
    have := (List.getElem?_eq_some_iff.mp hl).1
    omega
  have hequal : ∀ p, p ≤ r.snap.n.toNat →
      (allEqual (Memory.writeSample s.mem e v) r.snap p ↔ allEqual s.mem r.snap p) :=
    fun p hple => forall_congr' fun i => imp_congr_right fun hi => by rw [ha i (by omega), hb i (by omega)]
  have hdistance : ∀ p, p ≤ r.snap.n.toNat →
      maxDistance (Memory.writeSample s.mem e v) r.snap p = maxDistance s.mem r.snap p := by
    intro p hple
    induction p with
    | zero => rfl
    | succ p ih => rw [maxDistance, maxDistance, ih (by omega), ha p (by omega), hb p (by omega)]
  refine ⟨hmem, fun j l w hl => ?_, fun j l w hl => ?_, ?_, ?_⟩ <;> rw [hp]
  · rw [ha _ (hlane j l hl)]
    exact hla j l w hl
  · rw [hb _ (hlane j l hl)]
    exact hlb j l w hl
  · rw [hequal _ (by omega)]
    exact heq
  · rw [hdistance _ (by omega)]
    exact hmd

/-- R70 item 4: a store that meets no loan does not meet the running command's. -/
theorem Run.Legal.not_lent {s : State} {r : Run} (h : r.Legal s) (hop : r.snap.op.isMemory = true) {e : Nat}
    (hfree : s.loans.any (·.lendsForWrite e) = false) : r.snap.lendsForWrite e = false := by
  simpa using List.any_eq_false.mp hfree r.snap (h.borrowed hop)

/-! ## Every step -/

/-- Settles O48: by the kind of step; an own step by `OwnStep.axpyProgress`, a reset by `AxpyProgress.abandoned`, a host
store by `AxpyProgress.hostStore`, and no other event touches the command. -/
theorem stepKeepsAxpyProgress : Obligations.StepKeepsAxpyProgress := by
  intro m s t r hm hinv hr hop hprogress hstep m'
  have hm' : m' = storedByHost m s.agenda := rfl
  clear_value m'
  subst hm'
  have hlegal := hinv.running r hr
  rcases (StepOf.of_step hinv hstep).while_running hinv hr m with
    ⟨heq, ⟨rest, h⟩ | ⟨rest, ha, rfl⟩ | h⟩ | ⟨e, v, rest, heq, hholds, hfree, rfl⟩ <;> rw [heq]
  · rcases h.axpyProgress (hinv.withTurn rest .unit) hr hop (hprogress.congr rfl rfl) with h | h | h
    · exact .inl h
    · exact .inr (.inl h)
    · obtain ⟨hrun, herr, hcode, hp, habandoned⟩ := h
      exact .inr (.inr (.inl ⟨hrun, herr, hcode, hp, habandoned.completed, habandoned.either, habandoned.unread,
        habandoned.ahead, habandoned.outside⟩))
  · refine .inr (.inr (.inr ⟨by rw [ha]; rfl, ?_⟩))
    have hmem : { s with agenda := rest }.resetUnit.mem = ({ s with agenda := rest }.spill r).mem := by
      simp [State.resetUnit, State.abandon, hr]
    have habandoned := (hprogress.congr (u := { s with agenda := rest }) rfl rfl).abandoned hop
      (hlegal.congr rfl rfl rfl) hinv.memory hmem
    exact ⟨habandoned.completed, habandoned.either, habandoned.unread, habandoned.ahead, habandoned.outside⟩
  · exact .inl (h.axpyProgress hprogress)
  · exact .inl ⟨r, hr, rfl, hprogress.hostStore hop hlegal hm hinv.memory hholds (hlegal.not_lent hop.isMemory hfree) v
      rfl rfl⟩

/-- Settles O49: by the kind of step, as `stepKeepsAxpyProgress`; a COMPARE leaves nothing in memory. -/
theorem compareStepKeepsProgress : Obligations.CompareStepKeepsProgress := by
  intro m s t r hinv hr hop hprogress hstep m'
  have hm' : m' = storedByHost m s.agenda := rfl
  clear_value m'
  subst hm'
  have hlegal := hinv.running r hr
  rcases (StepOf.of_step hinv hstep).while_running hinv hr m with
    ⟨heq, ⟨rest, h⟩ | ⟨rest, ha, rfl⟩ | h⟩ | ⟨e, v, rest, heq, hholds, hfree, rfl⟩ <;> rw [heq]
  · obtain ⟨hmem, h | h | h⟩ := h.compareProgress (hinv.withTurn rest .unit) hr hop (hprogress.congr rfl rfl)
    · exact ⟨hmem, .inl h⟩
    · exact ⟨hmem, .inr (.inl h)⟩
    · exact ⟨hmem, .inr (.inr (.inl h))⟩
  · have hmem : { s with agenda := rest }.resetUnit.mem = s.mem := by
      simp [State.resetUnit, State.abandon, State.spill, hr, hop, Instr.writesY]
    exact ⟨hmem.trans hprogress.mem, .inr (.inr (.inr ⟨by rw [ha]; rfl, rfl⟩))⟩
  · obtain ⟨r', hr', hk, hp⟩ := h.compareProgress hprogress
    exact ⟨hp.mem, .inl ⟨r', hr', hk, hp⟩⟩
  · have hp := hprogress.hostStore (t := { s with agenda := rest, mem := Memory.writeSample s.mem e v }) hop hlegal
      hinv.memory (hlegal.not_lent (by rw [hop]; rfl) hfree) v rfl rfl
    exact ⟨hp.mem, .inl ⟨r, hr, rfl, hp⟩⟩

end Sys2Proof.Machine
end

section
/-! PROOFS. The register window: what a host write does and a host read returns at every offset, idle and busy (R22 to
R41, R48, R49). -/

namespace Sys2Proof.Machine

/-! ## A host access at a defined offset (R23) -/

theorem step_writeReg {s : State} {o : Nat} {w : Word} {rest : List Event} {reg : Reg} (h : s.writesNext o w rest)
    (ho : registerAt o = some reg) (hreg : reg ≠ .cmd) :
    step s = .next ({ s with agenda := rest }.writeReg reg w) := by
  rw [step_writesNext s o w rest h, ho]
  exact if_neg hreg

theorem step_readReg {s : State} {o : Nat} {rest : List Event} {reg : Reg} (h : s.readsNext o rest)
    (ho : registerAt o = some reg) : step s = .next ({ s with agenda := rest }.readReg reg) := by
  rw [step_readsNext s o rest h, ho]

/-- R22: every word-aligned offset of the window has a register, and no other offset has. -/
theorem registerAt_defined (o : Nat) : (∃ reg, registerAt o = some reg) ↔ o % 4 = 0 ∧ o < 0x100 := by
  constructor
  · rintro ⟨reg, h⟩
    rcases registerAt_eq_some h with rfl | ⟨-, -, hhigh, halign⟩
    · cases reg <;> decide
    · exact ⟨halign, hhigh⟩
  · rintro ⟨halign, hhigh⟩
    by_cases hlow : 0x44 ≤ o
    · exact ⟨_, registerAt_reserved o hlow hhigh halign⟩
    · obtain ⟨k, rfl⟩ : ∃ k, o = 4 * k := ⟨o / 4, by omega⟩
      have hk : k < 17 := by omega
      interval_cases k <;> exact ⟨_, rfl⟩

/-- R22: two registers do not share an offset. -/
theorem registerAt_unique {o : Nat} {reg reg' : Reg} (h : registerAt o = some reg) (ho : o = reg'.offset) :
    reg = reg' :=
  Option.some.inj (h.symm.trans (ho ▸ registerAt_offset reg'))

/-- R22: only the reserved offsets lie from 0x44 on. -/
theorem registerAt_high {o : Nat} {reg : Reg} (h : registerAt o = some reg) (ho : 0x44 ≤ o) : reg = .reserved := by
  rcases registerAt_eq_some h with rfl | ⟨rfl, -⟩
  · cases reg <;> simp [Reg.offset] at ho ⊢
  · rfl

/-! ## The fields of the words read (R25, R26, R28, R31) -/

theorem capWord_fields (t : Target) : (capWord t).getLsbD 0 = t.hasVector ∧ (capWord t).extractLsb' 1 7 = 0 ∧
    (capWord t).extractLsb' 8 24 = BitVec.ofNat 24 (if t.hasVector then t.vlmax else 1) := by
  refine ⟨?_, ?_, ?_⟩
  · simp only [capWord, BitVec.getLsbD_append, BitVec.getLsbD_ofBool]
    simp
  · ext i hi
    simp only [capWord, BitVec.getElem_extractLsb', BitVec.getLsbD_append, BitVec.getLsbD_ofBool]
    simp [hi]
  · ext i hi
    simp only [capWord, BitVec.getElem_extractLsb', BitVec.getLsbD_append, BitVec.getLsbD_ofBool]
    simp [show ¬ 8 + i < 1 by omega, BitVec.getLsbD_eq_getElem hi]

theorem ctrlWord_fields (ie : Bool) : (ctrlWord ie).getLsbD 0 = ie ∧ (ctrlWord ie).extractLsb' 1 31 = 0 := by
  refine ⟨?_, ?_⟩
  · simp only [ctrlWord, BitVec.getLsbD_append, BitVec.getLsbD_ofBool]
    simp
  · ext i hi
    simp only [ctrlWord, BitVec.getElem_extractLsb', BitVec.getLsbD_append, BitVec.getLsbD_ofBool]
    simp

/-- R28: the bits of the STATUS word, from the lowest on. -/
theorem Status.word_getLsbD (f : Status) (i : Nat) : f.word.getLsbD i =
    if i = 0 then f.busy else if i = 1 then f.done else if i = 2 then f.err else if i = 3 then f.ovr
    else if i < 8 then f.errcode.getLsbD (i - 4) else decide (i = 8) && f.equal := by
  simp only [Status.word, BitVec.getLsbD_append, BitVec.getLsbD_ofBool, BitVec.getLsbD_zero]
  match i with
  | 0 => simp
  | 1 => simp
  | 2 => simp
  | 3 => simp
  | i + 4 =>
    by_cases hi : i < 4
    · simp [hi, show i + 4 < 8 by omega]
    · simp [hi, show ¬ i + 4 < 8 by omega, show i - 4 = 0 ↔ i = 4 by omega]

/-- R28: the fields of the STATUS word. -/
theorem Status.word_fields (f : Status) : f.word.getLsbD 0 = f.busy ∧ f.word.getLsbD 1 = f.done ∧
    f.word.getLsbD 2 = f.err ∧ f.word.getLsbD 3 = f.ovr ∧ f.word.extractLsb' 4 4 = f.errcode ∧
    f.word.getLsbD 8 = f.equal ∧ f.word.extractLsb' 9 23 = 0 := by
  refine ⟨by simp only [f.word_getLsbD]; rfl, by simp only [f.word_getLsbD]; rfl, by simp only [f.word_getLsbD]; rfl,
    by simp only [f.word_getLsbD]; rfl, ?_, by simp only [f.word_getLsbD]; rfl, ?_⟩
  · ext i hi
    rw [BitVec.getElem_extractLsb', f.word_getLsbD, ← BitVec.getLsbD_eq_getElem]
    simp [show 4 + i ≠ 1 ∧ 4 + i ≠ 2 ∧ 4 + i ≠ 3 ∧ 4 + i < 8 by omega]
  · ext i hi
    rw [BitVec.getElem_extractLsb', f.word_getLsbD]
    simp [show 9 + i ≠ 1 ∧ 9 + i ≠ 2 ∧ 9 + i ≠ 3 ∧ 9 + i ≠ 8 ∧ ¬ 9 + i < 8 by omega]

/-- R28, R48: EQUAL is bit 8 alone. -/
theorem Status.word_withEqual (f : Status) (e : Bool) :
    ({ f with equal := e }.word).extractLsb' 0 8 = f.word.extractLsb' 0 8 := by
  ext i hi
  rw [BitVec.getElem_extractLsb', BitVec.getElem_extractLsb', Status.word_getLsbD, Status.word_getLsbD]
  simp [hi]

/-- R11: sign extension writes the signed value. -/
theorem sext32_eq (p : Sample) : sext32 p = u32 (s16 p) := rfl

/-! ## Writes -/

/-- R29: a write to STATUS, bit by bit. -/
theorem Status.acknowledge_eq (f : Status) (w : Word) : f.acknowledge w =
    { busy := f.busy
      done := if w.getLsbD 1 then false else f.done
      err := if w.getLsbD 2 then false else f.err
      ovr := if w.getLsbD 3 then false else f.ovr
      errcode := if w.getLsbD 2 then 0 else f.errcode
      equal := f.equal } := by
  unfold Status.acknowledge
  cases w.getLsbD 1 <;> cases w.getLsbD 2 <;> cases w.getLsbD 3 <;> simp

/-- Settles O19: the step is `State.acknowledge`, bit by bit as `Status.acknowledge_eq` says. -/
theorem statusAcknowledge : Obligations.StatusAcknowledge := by
  intro s rest w h
  have hstep := step_writeReg h (reg := .status) rfl (by decide)
  have hack : { s with agenda := rest }.writeReg .status w =
      { s with agenda := rest, status := s.status.acknowledge w } := rfl
  rw [hstep, hack, Status.acknowledge_eq]
  exact ⟨rfl, by rintro rfl; rfl⟩

/-- Settles O20: the register at each offset, and what `State.writeReg` does to it. -/
theorem registerWrites : Obligations.RegisterWrites := by
  intro s rest o w h s'
  refine ⟨?_, ?_, ?_, ?_, ?_, ?_, ?_, ?_, ?_, ?_⟩
  · rintro rfl
    exact step_writeReg h (reg := .ctrl) rfl (by decide)
  · rintro rfl
    exact step_writeReg h (reg := .n) rfl (by decide)
  · rintro rfl
    exact step_writeReg h (reg := .alpha) rfl (by decide)
  · rintro rfl
    exact step_writeReg h (reg := .aAddr) rfl (by decide)
  · rintro rfl
    exact step_writeReg h (reg := .bAddr) rfl (by decide)
  · rintro rfl
    exact step_writeReg h (reg := .yAddr) rfl (by decide)
  · rintro rfl
    exact step_writeReg h (reg := .opa) rfl (by decide)
  · rintro rfl
    exact step_writeReg h (reg := .opb) rfl (by decide)
  · rintro rfl
    exact step_writeReg h (reg := .acc) rfl (by decide)
  · rintro (rfl | rfl | rfl | rfl | rfl | rfl | ⟨hlow, hhigh, halign⟩)
    · exact step_writeReg h (reg := .id) rfl (by decide)
    · exact step_writeReg h (reg := .cap) rfl (by decide)
    · exact step_writeReg h (reg := .res) rfl (by decide)
    · exact step_writeReg h (reg := .maxdiff) rfl (by decide)
    · exact step_writeReg h (reg := .processed) rfl (by decide)
    · exact step_writeReg h (reg := .erraddr) rfl (by decide)
    · exact step_writeReg h (registerAt_reserved o hlow hhigh halign) (by decide)

/-! ## Reads -/

/-- The word a read returns rests on the unit and the draws, not on the events to come. -/
theorem State.readValue_withAgenda (s : State) (rest : List Event) (reg : Reg) :
    { s with agenda := rest }.readValue reg = s.readValue reg := by
  cases reg <;> rfl

theorem SameRegisters.of_withTurn {s t : State} {rest : List Event} {turn : Agent}
    (h : SameRegisters { s with agenda := rest, turn := turn } t) : SameRegisters s t :=
  { h with ctrl := h.ctrl }

/-- R23: a read of a register that has no open value and is not STATUS leaves only the word it returns. -/
theorem State.readReg_of_fixed (s : State) (reg : Reg) (hdraws : s.drawsOnRead reg = false) (hp : reg ≠ .processed)
    (hs : reg ≠ .status) : s.readReg reg = { s with rdata := s.readValue reg } := by
  simp [State.readReg, hdraws, hp, hs]

/-- R23: a read of an idle unit leaves only the word it returns, and a STATUS read ends the loans. -/
theorem State.readReg_idle (s : State) (reg : Reg) (hr : s.run = none) (hb : s.status.busy = false) :
    s.readReg reg = { s with rdata := s.readValue reg, loans := if reg = .status then [] else s.loans } := by
  have hdraws : s.drawsOnRead reg = false := by cases reg <;> simp [State.drawsOnRead, State.runs, hr]
  simp [State.readReg, hdraws, hr, hb]

/-- R48: no value is open while none of the commands named runs. -/
theorem State.runs_eq_false {s : State} {ops : List Instr} (h : ∀ r, s.run = some r → r.snap.op ∉ ops) :
    s.runs ops = false := by
  unfold State.runs
  split
  · next r hr => simpa using h r hr
  · rfl

theorem State.runs_idle {s : State} (hr : s.run = none) (ops : List Instr) : s.runs ops = false :=
  State.runs_eq_false fun r h => by simp [hr] at h

/-- R48: a register that is not open reads its own value. -/
theorem State.readValue_acc {s : State} (h : s.runs [.mac] = false) : s.readValue .acc = s.acc := by
  simp [State.readValue, State.readAcc, h]

theorem State.readValue_res {s : State} (h : s.runs [.mac, .clamp] = false) : s.readValue .res = sext32 s.res := by
  simp [State.readValue, State.readRes, h]

theorem State.readValue_maxdiff {s : State} (h : s.runs [.compare] = false) : s.readValue .maxdiff = s.maxdiff := by
  simp [State.readValue, State.readMaxdiff, h]

theorem State.readValue_status {s : State} (h : s.runs [.compare] = false) : s.readValue .status = s.status.word := by
  simp [State.readValue, State.readStatus, h]

theorem State.readValue_processed {s : State} (h : s.run = none) : s.readValue .processed = s.processed := by
  simp [State.readValue, State.processedRead, h]

theorem Target.vlmax_lt {t : Target} (h : t.wf = true) : t.vlmax < 2 ^ 24 := by
  simp only [Target.wf, Target.vlmaxInRange, Bool.and_eq_true, decide_eq_true_eq] at h
  omega

/-- Settles O21: the register at each offset, and its value by `State.readValue`. -/
theorem registerReadsWhileIdle : Obligations.RegisterReadsWhileIdle := by
  intro s rest o hinv hr h hrange halign
  obtain ⟨reg, ho⟩ := (registerAt_defined o).mpr ⟨halign, hrange⟩
  have hat : ∀ reg', o = reg'.offset → s.readValue reg = s.readValue reg' := fun reg' ho' =>
    congrArg _ (registerAt_unique ho ho')
  have hidle := State.runs_idle hr
  refine ⟨s.readValue reg, ?_, hat .id, fun h => hat .cap h ▸ ?_, fun h => hat .ctrl h ▸ ctrlWord_fields s.ctrlIE,
    hat .cmd, fun h => ?_, hat .n, hat .alpha, hat .aAddr, hat .bAddr, hat .yAddr, hat .opa, hat .opb,
    fun h => (hat .acc h).trans (State.readValue_acc (hidle _)),
    fun h => (hat .res h).trans (State.readValue_res (hidle _)),
    fun h => (hat .maxdiff h).trans (State.readValue_maxdiff (hidle _)),
    fun h => (hat .processed h).trans (State.readValue_processed hr), hat .erraddr, fun h => ?_⟩
  · have hstatus : o = 0x10 ↔ reg = .status := by
      refine ⟨fun h => registerAt_unique ho (reg' := .status) h, ?_⟩
      rintro rfl
      exact (registerAt_eq_some ho).resolve_right (by simp)
    rw [step_readReg h ho, State.readReg_idle { s with agenda := rest } reg hr (hinv.idle_of_run hr),
      s.readValue_withAgenda]
    simp only [hstatus]
  · obtain ⟨hlow, hzero, hhigh⟩ := capWord_fields s.target
    refine ⟨hlow, hzero, ?_⟩
    have hmax := Target.vlmax_lt hinv.target
    have hword : s.readValue .cap = capWord s.target := rfl
    rw [hword, hhigh, BitVec.toNat_ofNat, Nat.mod_eq_of_lt]
    split <;> omega
  · rw [hat .status h, State.readValue_status (hidle _)]
    exact s.status.word_fields
  · rw [registerAt_high ho h]
    rfl

/-- Settles O22: the write keeps bits 15:0, and the read that follows draws nothing and sign-extends them. -/
theorem sixteenBitRegistersReadBack : Obligations.SixteenBitRegistersReadBack := by
  intro s t rest o w ho h hstep
  have hread : ∀ reg, (reg = .alpha ∨ reg = .opa ∨ reg = .opb) → o = reg.offset →
      step t = .next { t with agenda := rest, rdata := { t with agenda := rest }.readValue reg } := by
    intro reg hreg ho'
    have hnext : t.agenda = .regRead (.offset o) 4 :: rest := by
      have hne : reg ≠ .cmd := by rcases hreg with rfl | rfl | rfl <;> decide
      rw [step_writeReg h (ho' ▸ registerAt_offset reg) hne] at hstep
      cases hstep
      rcases hreg with rfl | rfl | rfl <;> rfl
    rw [step_readReg ⟨.offset o, rfl, hnext⟩ (ho' ▸ registerAt_offset reg), State.readReg_of_fixed]
    all_goals rcases hreg with rfl | rfl | rfl <;> simp [State.drawsOnRead]
  rcases ho with rfl | rfl | rfl
  · rw [hread .alpha (.inl rfl) rfl]
    rw [step_writeReg h (reg := .alpha) rfl (by decide)] at hstep
    cases hstep
    exact ⟨rfl, rfl⟩
  · rw [hread .opa (.inr (.inl rfl)) rfl]
    rw [step_writeReg h (reg := .opa) rfl (by decide)] at hstep
    cases hstep
    exact ⟨rfl, rfl⟩
  · rw [hread .opb (.inr (.inr rfl)) rfl]
    rw [step_writeReg h (reg := .opb) rfl (by decide)] at hstep
    cases hstep
    exact ⟨rfl, rfl⟩

/-! ## Undefined accesses (R23) -/

/-- R23, O13: an access reaches a register exactly when it is a 32-bit one at a word-aligned offset below 0x100. -/
theorem portRegister_defined (t : Target) (place : Place) (size : Nat) :
    (∃ reg, portRegister t place size = some reg) ↔
      size = 4 ∧ ∃ o, place.resolve t = some o ∧ o % 4 = 0 ∧ o < 0x100 := by
  simp only [portRegister_eq_some, ← registerAt_defined]
  constructor
  · rintro ⟨reg, hsize, o, hplace, ho⟩
    exact ⟨hsize, o, hplace, reg, ho⟩
  · rintro ⟨hsize, o, hplace, reg, ho⟩
    exact ⟨reg, hsize, o, hplace, ho⟩

theorem portRegister_undefined {t : Target} {place : Place} {size : Nat}
    (h : ¬ (size = 4 ∧ ∃ o, place.resolve t = some o ∧ o % 4 = 0 ∧ o < 0x100)) : portRegister t place size = none := by
  rw [← portRegister_defined] at h
  exact Option.eq_none_iff_forall_ne_some.mpr fun reg hreg => h ⟨reg, hreg⟩

/-- A CMD write of a command that would start with a buffer in memory that is not ordinary (R65, log entry 14). -/
def State.Misplaces (s : State) (w : Word) : Prop :=
  s.status.busy = false ∧
    ∃ i, decode w = .command i ∧ (capture i s).issueError = none ∧ (capture i s).inOrdinaryMemory s.target = false

/-- R65, R200: a CMD write is refused exactly where it misplaces a buffer. -/
theorem State.issueWord_outcome (s : State) (w : Word) :
    (s.Misplaces w ∧ s.issueWord w = .refused .notOrdinaryMemory) ∨
      (¬ s.Misplaces w ∧ ∃ t, s.issueWord w = .next t) := by
  cases hd : decode w with
  | illegal why =>
    refine .inr ⟨?_, _, by simp only [State.issueWord, hd]; rfl⟩
    rintro ⟨-, i, hi, -⟩
    simp [hd] at hi
  | command i =>
    have hi : ∀ i', decode w = .command i' → i' = i := fun i' h => by simpa [hd] using h.symm
    by_cases hnop : i = .nop
    · subst hnop
      refine .inr ⟨?_, _, s.issueWord_nop w hd⟩
      rintro ⟨-, i', h, -, hout⟩
      rw [hi i' h, Snapshot.inOrdinaryMemory_of_empty _ _ (.inl rfl)] at hout
      cases hout
    · rw [s.issueWord_command w i hd hnop]
      rcases { s with turn := .host }.issue_cases i with
        ⟨hb, hc⟩ | ⟨-, code, addr, he, hc⟩ | ⟨-, -, ho, hc⟩ | ⟨hb, he, ho, hc⟩
      · exact .inr ⟨fun ⟨hb', _⟩ => absurd (hb.symm.trans hb') (by decide), _, hc⟩
      · exact .inr ⟨fun ⟨_, i', h, he', _⟩ => absurd (he.symm.trans (hi i' h ▸ he')) (by simp), _, hc⟩
      · exact .inr ⟨fun ⟨_, i', h, _, ho'⟩ => absurd (ho.symm.trans (hi i' h ▸ ho')) (by decide), _, hc⟩
      · exact .inl ⟨⟨hb, i, hd, he, ho⟩, hc⟩

/-- Settles O23: a defined access reaches a register; of those only a CMD write can be refused, as
`State.issueWord_outcome` says. -/
theorem undefinedAccessesAreRefused : Obligations.UndefinedAccessesAreRefused := by
  intro s rest place size w defined
  refine ⟨fun ha => ⟨fun hdef => ?_, fun hdef => ?_⟩, fun ha => ?_⟩
  · obtain ⟨reg, hreg⟩ := (portRegister_defined s.target place size).mpr hdef
    obtain ⟨rfl, o, hplace, ho⟩ := portRegister_eq_some.mp hreg
    exact ⟨_, step_readReg ⟨place, hplace, ha⟩ ho⟩
  · rw [step_event s _ rest ha]
    simp only [State.handle, State.hostRead, portRegister_undefined hdef]
  · intro misplaced
    have hstep : step s = { s with agenda := rest }.hostWrite place size w := step_event s _ rest ha
    have hcmd : ∀ o, size = 4 → place.resolve s.target = some o → o = 0x0C →
        step s = { s with agenda := rest }.issueWord w := by
      rintro o rfl hplace rfl
      rw [step_writesNext s 0x0C w rest ⟨place, hplace, ha⟩]
      rfl
    have hword : misplaced ↔ place.resolve s.target = some 0x0C ∧ { s with agenda := rest }.Misplaces w := Iff.rfl
    rw [hword]
    refine ⟨fun hdef hplaced => ?_, fun hdef hmis => ?_, fun hdef => ?_⟩
    · obtain ⟨reg, hreg⟩ := (portRegister_defined s.target place size).mpr hdef
      obtain ⟨hsize, o, hplace, ho⟩ := portRegister_eq_some.mp hreg
      subst hsize
      by_cases hreg : reg = .cmd
      · subst hreg
        obtain rfl : o = 0x0C := (registerAt_eq_some ho).resolve_right (by simp)
        rw [hcmd _ rfl hplace rfl]
        rcases { s with agenda := rest }.issueWord_outcome w with ⟨hm, -⟩ | ⟨-, hnext⟩
        · exact absurd ⟨hplace, hm⟩ hplaced
        · exact hnext
      · exact ⟨_, step_writeReg ⟨place, hplace, ha⟩ ho hreg⟩
    · obtain ⟨hsize, -⟩ := hdef
      obtain ⟨hplace, hm⟩ := hmis
      rw [hcmd _ hsize hplace rfl]
      rcases { s with agenda := rest }.issueWord_outcome w with ⟨-, hrefused⟩ | ⟨hn, -⟩
      · exact hrefused
      · exact absurd hm hn
    · rw [hstep]
      simp only [State.hostWrite, portRegister_undefined hdef]

/-! ## While a command runs (R48, R49) -/

/-- R48: what is open while a command runs is open for that command alone. -/
theorem State.runs_of_run {s : State} {r : Run} (hr : s.run = some r) (ops : List Instr) :
    s.runs ops = ops.contains r.snap.op := by
  simp [State.runs, hr]

/-- Settles O24: the register at each offset, its value by `State.readValue`, and `State.readReg_sameRegisters`. -/
theorem registerReadsWhileBusy : Obligations.RegisterReadsWhileBusy := by
  intro s rest o r hinv hr h hrange halign
  obtain ⟨reg, ho⟩ := (registerAt_defined o).mpr ⟨halign, hrange⟩
  have hlegal := hinv.running r hr
  have hbusy := hinv.busy_of_run hr
  have hruns := State.runs_of_run hr
  obtain ⟨hseen, hn⟩ := State.processedRead_bounds hr hlegal.seen
  have hat : ∀ reg', o = reg'.offset → ({ s with agenda := rest }.readReg reg).rdata = s.readValue reg' := by
    intro reg' ho'
    rw [State.readReg_rdata, s.readValue_withAgenda, registerAt_unique ho ho']
  refine ⟨_, step_readReg h ho, ({ s with agenda := rest }.readReg_sameRegisters reg).of_withTurn, by simp,
    by simp [hbusy], ?_, hat .id, hat .cap, hat .ctrl, hat .cmd, fun h => ?_, hat .n, hat .alpha, hat .aAddr,
    hat .bAddr, hat .yAddr, hat .opa, hat .opb,
    fun h hop => (hat .acc h).trans (State.readValue_acc (by simpa [hruns] using hop)),
    fun h => ⟨⟨_, hat .res h⟩, fun hmac hclamp =>
      (hat .res h).trans (State.readValue_res (by simp [hruns, hmac, hclamp]))⟩,
    fun h hop => (hat .maxdiff h).trans (State.readValue_maxdiff (by simpa [hruns] using hop)),
    hat .erraddr, fun h => ?_⟩
  · by_cases hreg : reg = .processed
    · subst hreg
      have hshown : ({ s with agenda := rest }.readReg .processed).run = some (r.withSeen s.processedRead) :=
        congrArg (Option.map fun r : Run => r.withSeen s.processedRead) hr
      refine ⟨_, hshown, rfl, hseen, fun h => ⟨?_, hn⟩⟩
      have := r.snap.n.isLt
      rw [hat .processed h]
      simp only [State.readValue, Run.withSeen]
      rw [BitVec.toNat_ofNat, Nat.mod_eq_of_lt (by omega)]
    · exact ⟨r, by simp [hr, hreg], rfl, Nat.le_refl _,
        fun h => absurd (registerAt_unique ho (reg' := .processed) h) hreg⟩
  · rw [hat .status h]
    refine ⟨Status.word_withEqual _ _, ?_, fun hop => State.readValue_status (by simpa [hruns] using hop)⟩
    obtain ⟨-, -, -, -, -, -, hzero⟩ := Status.word_fields { s.status with
      equal := if s.runs [.compare] then decide (s.choice % 2 = 1) else s.status.equal }
    exact hzero
  · rw [State.readReg_rdata, registerAt_high ho h]
    rfl

theorem State.processedRead_of_run {s : State} {r : Run} (hr : s.run = some r) :
    s.processedRead = r.seen + s.choice % (r.snap.n.toNat - r.seen + 1) := by
  simp [State.processedRead, hr]

/-- A feed that gives d next. -/
def Feed.giving (d : Nat) : Feed Nat :=
  { listed := [d], rest := none }

theorem State.choice_giving (s : State) (d : Nat) : { s with choices := Feed.giving d }.choice = d := rfl

/-- Settles O25: for each open register, the draw that makes it read the value named. -/
theorem openReadsTakeEveryValue : Obligations.OpenReadsTakeEveryValue := by
  intro s rest o r v hinv hr h hopen
  have hread : ∀ (reg : Reg) (d : Nat), o = reg.offset → { s with choices := Feed.giving d }.readValue reg = v →
      ∃ (f : Feed Nat) (t : State), step { s with choices := f } = .next t ∧ t.rdata = v := by
    intro reg d ho hv
    refine ⟨Feed.giving d, _,
      step_readReg (s := { s with choices := Feed.giving d }) h (ho ▸ registerAt_offset reg), ?_⟩
    rw [State.readReg_rdata, State.readValue_withAgenda { s with choices := Feed.giving d }, hv]
  have hruns := fun d => State.runs_of_run (s := { s with choices := Feed.giving d }) hr
  rcases hopen with ⟨ho, hop⟩ | ⟨ho, hop, p, rfl⟩ | ⟨ho, hop⟩ | ⟨ho, hop, b, rfl⟩ | ⟨ho, hlow, hhigh⟩
  · refine hread .acc v.toNat ho ?_
    simp [State.readValue, State.readAcc, hruns, hop, State.choice_giving]
  · refine hread .res p.toNat ho ?_
    rcases hop with hop | hop <;>
      simp [State.readValue, State.readRes, hruns, hop, State.choice_giving, sext32]
  · refine hread .maxdiff v.toNat ho ?_
    simp [State.readValue, State.readMaxdiff, hruns, hop, State.choice_giving]
  · refine hread .status b.toNat ho ?_
    cases b <;> simp [State.readValue, State.readStatus, hruns, hop, State.choice_giving]
  · refine hread .processed (v.toNat - r.seen) ho ?_
    have hmod : (v.toNat - r.seen) % (r.snap.n.toNat - r.seen + 1) = v.toNat - r.seen := Nat.mod_eq_of_lt (by omega)
    have hshown := State.processedRead_of_run (s := { s with choices := Feed.giving (v.toNat - r.seen) }) hr
    rw [State.choice_giving, hmod, Nat.add_sub_cancel' hlow] at hshown
    rw [State.readValue, hshown, BitVec.ofNat_toNat, BitVec.setWidth_eq]

/-- R28, R29: while BUSY, DONE, ERR and ERRCODE are 0, so a STATUS write can change only OVR. -/
theorem State.Inv.acknowledge_busy {s : State} (h : s.Inv) {r : Run} (hr : s.run = some r) (w : Word) :
    s.status.acknowledge w = { s.status with ovr := s.status.ovr && !w.getLsbD 3 } := by
  obtain ⟨hdone, herr⟩ := h.status.busy_alone (h.busy_of_run hr)
  have hcode := h.status.no_code herr
  simp [Status.acknowledge, hdone, herr, hcode]

/-- Settles O26: the registers by `State.writeReg`, STATUS by `State.Inv.acknowledge_busy`, and MAC's own step by
`State.finishMac`. -/
theorem writesWhileBusy : Obligations.WritesWhileBusy := by
  refine ⟨fun s rest o w r hinv hr h => ⟨fun ho => ?_, ?_⟩, fun s r hrunning hraced => ?_⟩
  · simp only [List.mem_cons, List.not_mem_nil, or_false] at ho
    obtain ⟨reg, hat, hreg⟩ : ∃ reg : Reg, o = reg.offset ∧
        reg ∈ [Reg.ctrl, .n, .alpha, .aAddr, .bAddr, .yAddr, .opa, .opb, .acc] := by
      rcases ho with rfl | rfl | rfl | rfl | rfl | rfl | rfl | rfl | rfl
      · exact ⟨.ctrl, rfl, by decide⟩
      · exact ⟨.n, rfl, by decide⟩
      · exact ⟨.alpha, rfl, by decide⟩
      · exact ⟨.aAddr, rfl, by decide⟩
      · exact ⟨.bAddr, rfl, by decide⟩
      · exact ⟨.yAddr, rfl, by decide⟩
      · exact ⟨.opa, rfl, by decide⟩
      · exact ⟨.opb, rfl, by decide⟩
      · exact ⟨.acc, rfl, by decide⟩
    have hne : reg ≠ .cmd ∧ reg ≠ .status := by
      constructor <;> rintro rfl <;> simp at hreg
    have hiff : ∀ reg' : Reg, o = reg'.offset ↔ reg = reg' := fun reg' =>
      ⟨fun h => registerAt_unique (hat ▸ registerAt_offset reg) h, fun h => h ▸ hat⟩
    have hctrl : o = 0x08 ↔ reg = .ctrl := hiff .ctrl
    have hn : o = 0x14 ↔ reg = .n := hiff .n
    have halpha : o = 0x18 ↔ reg = .alpha := hiff .alpha
    have haAddr : o = 0x1C ↔ reg = .aAddr := hiff .aAddr
    have hbAddr : o = 0x20 ↔ reg = .bAddr := hiff .bAddr
    have hyAddr : o = 0x24 ↔ reg = .yAddr := hiff .yAddr
    have hopa : o = 0x28 ↔ reg = .opa := hiff .opa
    have hopb : o = 0x2C ↔ reg = .opb := hiff .opb
    have hacc : o = 0x30 ↔ reg = .acc := hiff .acc
    refine ⟨_, step_writeReg h (hat ▸ registerAt_offset reg) hne.1, ?_⟩
    simp only [hctrl, hn, halpha, haAddr, hbAddr, hyAddr, hopa, hopb, hacc, State.writeReg_status,
      State.writeReg_run, State.writeReg_mem, State.writeReg_processed, State.writeReg_res, State.writeReg_maxdiff,
      State.writeReg_erraddr, State.writeReg_ctrlIE, State.writeReg_n, State.writeReg_alpha, State.writeReg_aAddr,
      State.writeReg_bAddr, State.writeReg_yAddr, State.writeReg_opa, State.writeReg_opb, State.writeReg_acc,
      if_neg hne.2, and_true, hr, Option.map_some, Run.raceAcc_eq]
    split <;> simp [*]
  · rintro rfl
    rw [step_writeReg h (reg := .status) rfl (by decide), ← hinv.acknowledge_busy hr]
    rfl
  · obtain ⟨-, hturn, hrun, hop, hlive⟩ := hrunning
    refine ⟨⟨_, exec_mac_unit s r hturn hrun hop hlive, ?_⟩, fun v => ?_⟩
    · simp only [State.finishMac, hraced, if_true]
      rfl
    · refine ⟨Feed.giving v.toNat, _,
        exec_mac_unit { s with choices := Feed.giving v.toNat } r hturn hrun hop hlive, ?_⟩
      simp [State.finishMac, hraced, State.choice_giving]

end Sys2Proof.Machine
end

section
/-! PROOFS. The interrupt line, the reset values, and which steps can change each register (R46, R47, R37 to R41). -/

namespace Sys2Proof.Machine

/-! ## The interrupt line (R46, R210) -/

/-- R201, R202: an own step lets the command go on, or ends it with DONE = 1. -/
theorem OwnStep.goes_on_or_done {s t : State} {r : Run} (h : OwnStep s r t) :
    t.run ≠ none ∨ (t.run = none ∧ t.ctrlIE = s.ctrlIE ∧ t.status.done = true) := by
  cases h with
  | mac =>
    obtain ⟨acc, c, d, heq⟩ := s.finishMac_eq r
    rw [heq]
    exact .inr ⟨rfl, rfl, rfl⟩
  | clamp =>
    obtain ⟨acc, c, d, heq, -⟩ := s.finishClamp_eq r
    rw [heq]
    exact .inr ⟨rfl, rfl, rfl⟩
  | chunk => exact .inl (Option.some_ne_none _)
  | moved => exact .inl (Option.some_ne_none _)
  | closed => exact .inl (Option.some_ne_none _)
  | failed q x =>
    obtain ⟨m, c, d, -, ⟨-, -, heq⟩ | ⟨-, -, heq⟩⟩ :=
      s.afterChoice.afterResponse.busError_eq q (x.address q.snap s.processed.toNat) <;> rw [heq]
    · exact .inr ⟨rfl, rfl, rfl⟩
    · exact .inr ⟨rfl, rfl, rfl⟩
  | silent => exact .inl (Option.some_ne_none _)
  | finish =>
    rcases s.finishMemory_eq r with ⟨-, heq⟩ | ⟨-, heq⟩ <;> rw [heq]
    · exact .inr ⟨rfl, rfl, rfl⟩
    · exact .inr ⟨rfl, rfl, rfl⟩

/-- R43, R46: whether a command runs changes only at acceptance, which clears DONE, at reset, and at the end of a
command, which sets DONE. -/
theorem StepOf.run_changes {s t : State} (hinv : s.Inv) (h : StepOf s t) :
    (t.run = none ↔ s.run = none) ∨ (s.run = none ∧ t.status.done = false) ∨ s.agenda.head? = some .reset ∨
      (t.run = none ∧ t.ctrlIE = s.ctrlIE ∧ t.status.done = true) := by
  cases h with
  | quiet => exact .inl Iff.rfl
  | idle => exact .inl Iff.rfl
  | own rest r _ ha hr hlive h =>
    rcases h.goes_on_or_done with h | h
    · exact .inl (iff_of_false h (by simp [hr]))
    · exact .inr (.inr (.inr h))
  | stuck => exact .inl Iff.rfl
  | reset rest ha => exact .inr (.inr (.inl (by rw [ha]; rfl)))
  | write o w rest reg =>
    refine .inl ?_
    rw [State.writeReg_run]
    split <;> simp
  | nop => exact .inl Iff.rfl
  | dropped => exact .inl Iff.rfl
  | illegal => exact .inr (.inr (.inr ⟨rfl, rfl, rfl⟩))
  | rejected => exact .inr (.inr (.inr ⟨rfl, rfl, rfl⟩))
  | accepted w rest i hw hd hi hb => exact .inr (.inl ⟨hinv.run_of_idle hb, rfl⟩)
  | read o rest reg =>
    refine .inl ?_
    rw [State.readReg_run]
    split <;> simp
  | waitIdle => exact .inl (by simp)
  | waitBusy => exact .inl (by simp)
  | irqSample => exact .inl Iff.rfl
  | store => exact .inl Iff.rfl
  | load => exact .inl Iff.rfl

/-- R94, R200, R204 to R206: on an idle unit a CMD write of an illegal word, or of a command that fails a check, ends in
an error. -/
theorem step_of_failing_cmdWrite {s : State} {rest : List Event} {w : Word} (hb : s.status.busy = false)
    (h : s.writesNext 0x0C w rest)
    (hfails : (∃ why, decode w = .illegal why) ∨
      ∃ i, decode w = .command i ∧ i ≠ .nop ∧ (capture i s).issueError ≠ none) :
    ∃ code addr, step s = .next ({ s with agenda := rest, turn := .host }.raiseError code addr) := by
  have hstep : step s = { s with agenda := rest }.issueWord w := step_writesNext s 0x0C w rest h
  rcases hfails with ⟨why, hd⟩ | ⟨i, hd, hi, he⟩
  · refine ⟨.illegal, none, hstep.trans ?_⟩
    simp [State.issueWord, hd, State.issueIllegal, hb]
  · rw [hstep, State.issueWord_command _ w i hd hi]
    rcases { s with agenda := rest, turn := .host }.issue_cases i with
      ⟨hb', -⟩ | ⟨-, code, addr, -, hc⟩ | ⟨-, he', -⟩ | ⟨-, he', -⟩
    · exact absurd (hb.symm.trans hb') (by decide)
    · exact ⟨code, some addr, hc⟩
    · exact absurd he' he
    · exact absurd he' he

/-- Settles O28: the accesses by what each does, the ends and the acceptance of a command by `StepOf.run_changes`. -/
theorem interruptLine : Obligations.InterruptLine := by
  refine ⟨fun s => Bool.and_eq_true_iff, fun s rest ha => ?_, fun s rest w h => ?_, fun s rest w h => ?_,
    fun s t hinv hstep hreset hr ht => ?_, fun s t hinv hstep hr ht => ?_, fun s rest w hinv hr h hfails => ?_⟩
  · exact ⟨_, step_event s _ rest ha, rfl, by constructor <;> rfl⟩
  · refine ⟨_, step_writeReg h (reg := .status) rfl (by decide), ?_⟩
    simp only [State.writeReg, State.irq, State.acknowledge_ctrlIE, State.acknowledge_status,
      Status.acknowledge_done, Bool.and_assoc]
  · exact ⟨_, step_writeReg h (reg := .ctrl) rfl (by decide), rfl, rfl⟩
  · rcases (StepOf.of_step hinv hstep).run_changes hinv with h | ⟨h, -⟩ | h | ⟨-, hie, hdone⟩
    · exact absurd (h.mp ht) hr
    · exact absurd h hr
    · exact absurd h hreset
    · simp [State.irq, hie, hdone]
  · rcases (StepOf.of_step hinv hstep).run_changes hinv with h | ⟨-, hdone⟩ | h | ⟨h, -⟩
    · exact absurd (h.mpr hr) ht
    · simp [State.irq, hdone]
    · obtain ⟨rest, ha⟩ : ∃ rest, s.agenda = .reset :: rest := by
        cases hs : s.agenda with
        | nil => simp [hs] at h
        | cons e rest => exact ⟨rest, by simp_all⟩
      rw [step_event s _ rest ha] at hstep
      cases hstep
      rfl
    · exact absurd h ht
  · obtain ⟨code, addr, hstep⟩ := step_of_failing_cmdWrite (hinv.idle_of_run hr) h hfails
    exact ⟨_, hstep, rfl, rfl, Bool.and_true _⟩

/-! ## The reset values (R47) -/

/-- R230: abandoning a command changes no byte outside the output of an AXPY command. -/
theorem State.abandon_readByte {s : State} (hinv : s.Inv) (a : Nat) :
    Memory.readByte s.abandon.mem a = Memory.readByte s.mem a ∨
      ∃ r, s.run = some r ∧ IsAxpy r.snap.op ∧ inBuffer r.snap r.snap.yAddr a := by
  cases hr : s.run with
  | none => exact .inl (by simp [State.abandon, hr])
  | some r =>
    have habandon : s.abandon = s.spill r := by simp [State.abandon, hr]
    have hlegal := hinv.running r hr
    cases hw : r.snap.op.writesY with
    | false => exact .inl (by simp [habandon, State.spill, hw])
    | true =>
      have hop : IsAxpy r.snap.op := by
        cases hop : r.snap.op <;> simp [hop, Instr.writesY] at hw
        · exact .inl rfl
        · exact .inr rfl
      have hinside := hlegal.inside hop.isMemory
      have hspill : s.spill r = spillFrom r.snap s.processed.toNat 0 r.lanes s := if_pos hw
      obtain ⟨hout, -⟩ := spillFrom_leaves r.snap s.processed.toNat r.lanes 0 s hinv.memory fun i hi =>
        r.snap.holds_elem hop.isMemory hlegal.checked _ (r.snap.yAddr_mem_bases hw) _ (by omega)
      rw [habandon, hspill]
      by_cases hin : inBuffer r.snap r.snap.yAddr a
      · exact .inr ⟨r, rfl, hop, hin⟩
      · refine .inl (hout a ?_)
        simp only [inBuffer, Snapshot.bytes, elem] at *
        omega

/-- Settles O29: State.reset is on the installation of Config, a reset step leaves the registers of `State.resetOn`, and
these read as R47 says. -/
theorem resetValues : Obligations.ResetValues := by
  refine ⟨⟨Config.target, rfl, Config.target_wf⟩, fun s rest hinv ha => ?_, fun t => ?_⟩
  · exact ⟨_, step_event s _ rest ha, by constructor <;> rfl, rfl, rfl,
      { s with agenda := rest }.abandon_readByte (hinv.withAgenda rest)⟩
  · have hstatus : (State.resetOn t).readValue .status = 0 :=
      (State.readValue_status (State.runs_idle rfl _)).trans (by decide : Status.reset.word = 0)
    have hctrl : ctrlWord false = 0 := by decide
    exact ⟨rfl, capWord_fields t, hctrl, rfl, hstatus, rfl, rfl, rfl, rfl, rfl, rfl, rfl, rfl, rfl, rfl, rfl, rfl, rfl,
      rfl, rfl, rfl, rfl, rfl⟩

/-! ## Which steps change which register (R37 to R41) -/

/-- The command running in s is one of `ops` and has ended in t. -/
def Ends (s t : State) (ops : List Instr) : Prop :=
  ∃ r, s.run = some r ∧ r.snap.op ∈ ops ∧ t.run = none

/-- The next event of s is a 32-bit host write to offset o. -/
def Written (s : State) (o : Nat) : Prop :=
  ∃ w rest, s.writesNext o w rest

/-- CTRL and the operand registers change only by a write to them, the installation's parameters never. -/
structure OperandChanges (s t : State) : Prop where
  ctrl : t.ctrlIE ≠ s.ctrlIE → Written s 0x08
  n : t.n ≠ s.n → Written s 0x14
  alpha : t.alpha ≠ s.alpha → Written s 0x18
  aAddr : t.aAddr ≠ s.aAddr → Written s 0x1C
  bAddr : t.bAddr ≠ s.bAddr → Written s 0x20
  yAddr : t.yAddr ≠ s.yAddr → Written s 0x24
  opa : t.opa ≠ s.opa → Written s 0x28
  opb : t.opb ≠ s.opb → Written s 0x2C
  target : t.target = s.target

/-- What may change each register in a step other than reset. -/
structure RegisterChanges (s t : State) : Prop where
  operands : OperandChanges s t
  res : t.res ≠ s.res → Ends s t [.mac, .clamp]
  maxdiff : t.maxdiff ≠ s.maxdiff → Ends s t [.compare]
  equal : t.status.equal ≠ s.status.equal → Ends s t [.compare]
  acc : t.acc ≠ s.acc → Ends s t [.mac] ∨ Written s 0x30 ∨
    (Ends s t [.clamp] ∧ ∃ r, s.run = some r ∧ r.accRaced = true)
  erraddr : t.erraddr ≠ s.erraddr → t.status.err = true ∧ t.status.done = true ∧ 2 ≤ t.status.errcode.toNat ∧
    t.status.errcode.toNat ≤ 5
  processed : t.processed ≠ s.processed → ∃ r', t.run = some r' ∧ IsMemoryCommand r'.snap.op ∧
    (s.run = none → t.processed = 0) ∧ (s.run ≠ none → s.processed.toNat < t.processed.toNat)
  ovr : t.status.ovr = s.status.ovr ∨
    (t.status.ovr = false ∧ ∃ w rest, s.writesNext 0x10 w rest ∧ w.getLsbD 3 = true) ∨
    (t.status.ovr = true ∧ s.status.busy = true ∧ ∃ w rest, s.writesNext 0x0C w rest ∧ w ≠ 0)

/-- CTRL, the operand registers and the parameters are as they were. -/
theorem OperandChanges.of_kept {s t : State}
    (h : (t.ctrlIE, t.n, t.alpha, t.aAddr, t.bAddr, t.yAddr, t.opa, t.opb, t.target) =
      (s.ctrlIE, s.n, s.alpha, s.aAddr, s.bAddr, s.yAddr, s.opa, s.opb, s.target)) : OperandChanges s t := by
  simp only [Prod.mk.injEq] at h
  obtain ⟨hctrl, hn, halpha, haAddr, hbAddr, hyAddr, hopa, hopb, htarget⟩ := h
  exact ⟨absurd hctrl, absurd hn, absurd halpha, absurd haAddr, absurd hbAddr, absurd hyAddr, absurd hopa, absurd hopb,
    htarget⟩

theorem RegisterChanges.of_same {s t : State} (h : SameRegisters s t) : RegisterChanges s t where
  operands := .of_kept (by rw [h.ctrl, h.n, h.alpha, h.aAddr, h.bAddr, h.yAddr, h.opa, h.opb, h.target])
  res := absurd h.res
  maxdiff := absurd h.maxdiff
  equal := absurd (by rw [h.status])
  acc := absurd h.acc
  erraddr := absurd h.erraddr
  processed := absurd h.processed
  ovr := .inl (by rw [h.status])

/-- R23 to R37: a host write changes the register written. -/
theorem RegisterChanges.of_write {s : State} {o : Nat} {w : Word} {rest : List Event} {reg : Reg}
    (h : s.writesNext o w rest) (ho : registerAt o = some reg) :
    RegisterChanges s ({ s with agenda := rest }.writeReg reg w) := by
  have hat : ∀ reg' : Reg, reg' ≠ .reserved → reg = reg' → s.writesNext reg'.offset w rest := by
    rintro reg' hne rfl
    exact (registerAt_eq_some ho).resolve_right (fun hres => hne hres.1) ▸ h
  have hwritten : ∀ (reg' : Reg) {α : Type} {a b x : α}, reg' ≠ .reserved → (a = if reg = reg' then x else b) → a ≠ b →
      Written s reg'.offset := by
    intro reg' α a b x hne ha hchanged
    by_cases hreg : reg = reg'
    · exact ⟨w, rest, hat reg' hne hreg⟩
    · exact absurd (ha.trans (if_neg hreg)) hchanged
  exact {
    operands := {
      ctrl := hwritten .ctrl (by decide) (State.writeReg_ctrlIE _ _ _)
      n := hwritten .n (by decide) (State.writeReg_n _ _ _)
      alpha := hwritten .alpha (by decide) (State.writeReg_alpha _ _ _)
      aAddr := hwritten .aAddr (by decide) (State.writeReg_aAddr _ _ _)
      bAddr := hwritten .bAddr (by decide) (State.writeReg_bAddr _ _ _)
      yAddr := hwritten .yAddr (by decide) (State.writeReg_yAddr _ _ _)
      opa := hwritten .opa (by decide) (State.writeReg_opa _ _ _)
      opb := hwritten .opb (by decide) (State.writeReg_opb _ _ _)
      target := State.writeReg_target _ _ _ }
    res := absurd (State.writeReg_res _ _ _)
    maxdiff := absurd (State.writeReg_maxdiff _ _ _)
    equal := absurd (by rw [State.writeReg_status]; split <;> rfl)
    acc := fun hacc => .inr (.inl (hwritten .acc (by decide) (State.writeReg_acc _ _ _) hacc))
    erraddr := absurd (State.writeReg_erraddr _ _ _)
    processed := absurd (State.writeReg_processed _ _ _)
    ovr := by
      rw [State.writeReg_status]
      split
      · next hreg =>
        cases hw : w.getLsbD 3 with
        | true => exact .inr (.inl ⟨by rw [Status.acknowledge_ovr, hw]; simp, w, rest, hat _ (by decide) hreg, hw⟩)
        | false => exact .inl (by rw [Status.acknowledge_ovr, hw]; simp)
      · exact .inl rfl }

/-- R204 to R206: a check that fails is never ILLEGAL. -/
theorem Snapshot.issueError_ne_illegal {k : Snapshot} {code : ErrCode} {addr : Word}
    (h : k.issueError = some (code, addr)) : code ≠ .illegal := by
  have hfirst : k.firstError = some (code, addr) := by
    unfold Snapshot.issueError at h
    split at h
    · exact h
    · cases h
  rintro rfl
  unfold Snapshot.firstError at hfirst
  split at hfirst
  · cases hfirst
  · split at hfirst
    · cases hfirst
    · split at hfirst <;> cases hfirst

/-- R203: the errors that have an address have the codes 2 to 5. -/
theorem ErrCode.code_of_address {code : ErrCode} (h : code ≠ .illegal) :
    2 ≤ code.code.toNat ∧ code.code.toNat ≤ 5 := by
  cases code with
  | illegal => exact absurd rfl h
  | align => decide
  | range => decide
  | overlap => decide
  | bus => decide

/-- R37 to R41: what an own step can change. -/
theorem OwnStep.registerChanges {s t : State} {r : Run} {rest : List Event} {turn : Agent} (hr : s.run = some r)
    (h : OwnStep { s with agenda := rest, turn := turn } r t) : RegisterChanges s t := by
  let u : State := { s with agenda := rest, turn := turn }
  change OwnStep u r t at h
  cases h with
  | mac hop =>
    obtain ⟨acc, c, d, heq⟩ := u.finishMac_eq r
    rw [heq]
    have hends : ∀ ops, Instr.mac ∈ ops → Ends s { u with
        acc := acc, res := axpySample r.snap.opa r.snap.alpha r.snap.opb, choices := c, drawn := d }.complete ops :=
      fun ops hmem => ⟨r, hr, hop ▸ hmem, rfl⟩
    exact ⟨.of_kept rfl, fun _ => hends _ (by simp), absurd rfl, absurd rfl,
      fun _ => .inl (hends _ (by simp)), absurd rfl, absurd rfl, .inl rfl⟩
  | clamp hop =>
    obtain ⟨acc, c, d, heq, hkept⟩ := u.finishClamp_eq r
    rw [heq]
    have hends : ∀ ops, Instr.clamp ∈ ops → Ends s { u with
        acc := acc, res := u16 (Machine.clamp (s32 r.snap.acc)), choices := c, drawn := d }.complete ops :=
      fun ops hmem => ⟨r, hr, hop ▸ hmem, rfl⟩
    refine ⟨.of_kept rfl, fun _ => hends _ (by simp), absurd rfl, absurd rfl,
      fun hacc => .inr (.inr ⟨hends _ (by simp), r, hr, ?_⟩), absurd rfl, absurd rfl, .inl rfl⟩
    by_contra hraced
    exact hacc (hkept (by simpa using hraced))
  | chunk => exact .of_same (by constructor <;> rfl)
  | moved => exact .of_same (by constructor <;> rfl)
  | closed q x hq =>
    have hinside := hq.legal.inside (hq.snap ▸ hq.memory.isMemory)
    have hp := (u.moved q x).closeStrip_processed (q.moved u x) q.snap.n (by rw [q.moved_length]; exact hinside)
    have hpos := List.length_pos_of_ne_nil hq.lanes_ne_nil
    refine ⟨.of_kept rfl, absurd rfl, absurd rfl, absurd rfl, absurd rfl, absurd rfl,
      fun _ => ⟨_, rfl, ?_, fun hn => by simp [hr] at hn, fun _ => ?_⟩, .inl rfl⟩
    · rw [show (q.moved u x).snap = r.snap from hq.snap]
      exact hq.memory
    · rw [hp, q.moved_length]
      exact Nat.lt_add_of_pos_right hpos
  | failed q x hq =>
    obtain ⟨m, c, d, -, ⟨hop, -, heq⟩ | ⟨-, -, heq⟩⟩ :=
      u.afterChoice.afterResponse.busError_eq q (x.address q.snap u.processed.toNat) <;> rw [heq]
    · have hends : ∀ t, t.run = none → Ends s t [.compare] :=
        fun t ht => ⟨r, hr, by rw [← hq.snap, hop]; simp, ht⟩
      exact ⟨.of_kept rfl, absurd rfl, fun _ => hends _ rfl, fun _ => hends _ rfl,
        absurd rfl, fun _ => ⟨rfl, rfl, ErrCode.code_of_address (code := .bus) (by decide)⟩, absurd rfl, .inl rfl⟩
    · exact ⟨.of_kept rfl, absurd rfl, absurd rfl, absurd rfl, absurd rfl,
        fun _ => ⟨rfl, rfl, ErrCode.code_of_address (code := .bus) (by decide)⟩, absurd rfl, .inl rfl⟩
  | silent => exact .of_same (by constructor <;> rfl)
  | finish =>
    rcases u.finishMemory_eq r with ⟨hop, heq⟩ | ⟨-, heq⟩ <;> rw [heq]
    · have hends : Ends s (u.report r).complete [.compare] := ⟨r, hr, by simp [hop], rfl⟩
      exact ⟨.of_kept rfl, absurd rfl, fun _ => hends, fun _ => hends, absurd rfl,
        absurd rfl, absurd rfl, .inl rfl⟩
    · exact ⟨.of_kept rfl, absurd rfl, absurd rfl, absurd rfl, absurd rfl, absurd rfl,
        absurd rfl, .inl rfl⟩

/-- R37 to R41: what a step other than reset can change. -/
theorem StepOf.registerChanges {s t : State} (hinv : s.Inv) (h : StepOf s t) (hreset : s.agenda.head? ≠ some .reset) :
    RegisterChanges s t := by
  cases h with
  | quiet => exact .of_same (by constructor <;> rfl)
  | idle => exact .of_same (by constructor <;> rfl)
  | own rest r _ ha hr _ h => exact h.registerChanges hr
  | stuck => exact .of_same (by constructor <;> rfl)
  | reset rest ha => exact absurd (by rw [ha]; rfl) hreset
  | write o w rest reg hw ho => exact .of_write hw ho
  | nop => exact .of_same (by constructor <;> rfl)
  | dropped w rest hw hd hb =>
    refine ⟨.of_kept rfl, absurd rfl, absurd rfl, absurd rfl, absurd rfl, absurd rfl,
      absurd rfl, .inr (.inr ⟨rfl, hb, w, rest, hw, ?_⟩)⟩
    rintro rfl
    exact hd (by decide)
  | illegal =>
    exact ⟨.of_kept rfl, absurd rfl, absurd rfl, absurd rfl, absurd rfl, absurd rfl,
      absurd rfl, .inl rfl⟩
  | rejected w rest i code addr hw hd hi hb he =>
    exact ⟨.of_kept rfl, absurd rfl, absurd rfl, absurd rfl, absurd rfl,
      fun _ => ⟨rfl, rfl, ErrCode.code_of_address (Snapshot.issueError_ne_illegal he)⟩, absurd rfl, .inl rfl⟩
  | accepted w rest i hw hd hi hb =>
    refine ⟨.of_kept rfl, absurd rfl, absurd rfl, absurd rfl, absurd rfl, absurd rfl,
      fun hp => ⟨_, rfl, ?_⟩, .inl rfl⟩
    have hmem : i.isMemory = true := by
      by_contra hn
      exact hp (if_neg hn)
    exact ⟨isMemoryCommand_of_isMemory hmem, fun _ => if_pos hmem, fun hn => absurd (hinv.run_of_idle hb) hn⟩
  | read o rest reg => exact .of_same ({ s with agenda := rest }.readReg_sameRegisters reg).of_withTurn
  | waitIdle rest => exact .of_same ({ s with agenda := rest }.readReg_sameRegisters .status).of_withTurn
  | waitBusy rest => exact .of_same { ({ s with agenda := rest }.readReg_sameRegisters .status).of_withTurn with }
  | irqSample => exact .of_same (by constructor <;> rfl)
  | store => exact .of_same (by constructor <;> rfl)
  | load => exact .of_same (by constructor <;> rfl)

/-- Settles O36: field by field from `StepOf.registerChanges`. -/
theorem whichStepsWriteWhichRegister : Obligations.WhichStepsWriteWhichRegister := by
  intro s t hinv hstep hreset ends written
  obtain ⟨hoperands, hres, hmaxdiff, hequal, hacc, herraddr, hprocessed, hovr⟩ :=
    (StepOf.of_step hinv hstep).registerChanges hinv hreset
  obtain ⟨hctrl, hn, halpha, haAddr, hbAddr, hyAddr, hopa, hopb, htarget⟩ := hoperands
  refine ⟨hres, hmaxdiff, hequal, hacc, herraddr, hprocessed, fun hset hclear => ?_, fun hclear hset => ?_, hctrl, hn,
    halpha, haAddr, hbAddr, hyAddr, hopa, hopb, htarget⟩
  · rcases hovr with h | ⟨-, h⟩ | ⟨h, -⟩
    · simp [hset, hclear] at h
    · exact h
    · simp [hclear] at h
  · rcases hovr with h | ⟨h, -⟩ | ⟨-, h⟩
    · simp [hset, hclear] at h
    · simp [hset] at h
    · exact h

end Sys2Proof.Machine
end

section
/-! PROOFS. A whole command is what the machine's own steps run (R43, R200, R251). -/

namespace Sys2Proof.Machine

theorem decode_encode (op : Instr) : decode (encode op) = .command op := by
  cases op <;> rfl

/-- R200: the issue of a command that is ready is accepted. -/
theorem exec_of_ready {op : Instr} {s : State} (hop : op ≠ .nop) (h : Ready op s) :
    exec op { s with turn := .host } = .next ({ s with turn := .host }.accept (capture op s)) := by
  rw [exec_host op hop _ rfl]
  rcases { s with turn := .host }.issue_cases op with ⟨hb, -⟩ | ⟨-, code, addr, he, -⟩ | ⟨-, -, -, hi⟩ | ⟨-, -, ho, -⟩
  · exact absurd (hb.symm.trans h.idle) (by decide)
  · exact absurd (he.symm.trans h.checks) (by simp)
  · exact hi
  · exact absurd (ho.symm.trans h.placed) (by decide)

/-- Every value of a feed that always gives v is v, also after one is taken. -/
theorem Feed.Always.advance {α : Type} {f : Feed α} {v : α} (h : f.Always v) : f.advance.Always v :=
  ⟨fun x hx => h.1 x (List.mem_of_mem_tail hx), h.2⟩

/-- The machine left to itself on a platform that answers: no event is to come, and a command that runs is `op`, which
does not wait for ever. -/
structure Undisturbed (op : Instr) (s : State) : Prop where
  inv : s.Inv
  agenda : s.agenda = []
  answers : s.responses.Always .ok
  running : ∀ r, s.run = some r → r.snap.op = op ∧ r.hung = false

/-- R7, R207: on a platform that answers, an own step leaves the command's kind, and whose turn it is, alone. -/
theorem OwnStep.undisturbed {op : Instr} {s t : State} {r : Run} (h : Undisturbed op s) (hr : s.run = some r)
    (hstep : OwnStep s r t) : Undisturbed op t ∧ t.turn = s.turn := by
  have hinv := hstep.inv h.inv hr
  obtain ⟨hop, hlive⟩ := h.running r hr
  have hq : ∀ q x, NextTransaction s r q x → q.snap.op = op ∧ q.hung = false := by
    intro q x hq
    refine ⟨hq.snap ▸ hop, ?_⟩
    rcases hq.strip with ⟨-, rfl⟩ | ⟨-, -, rfl⟩ <;> exact hlive
  have hok : s.afterChoice.response = .ok := Feed.Always_now _ _ _ h.answers.1 h.answers.2
  have hgoes : ∀ r', t.run = some r' → r'.snap.op = op ∧ r'.hung = false → t.agenda = s.agenda →
      t.responses.Always .ok → Undisturbed op t := fun r' hr' hrun ha hresp =>
    ⟨hinv, ha.trans h.agenda, hresp, fun r'' hr'' => Option.some.inj (hr'.symm.trans hr'') ▸ hrun⟩
  have hends : t.run = none → t.agenda = s.agenda → t.responses = s.responses → Undisturbed op t :=
    fun hn ha hresp => ⟨hinv, ha.trans h.agenda, hresp ▸ h.answers, fun r' hr' => by simp [hn] at hr'⟩
  cases hstep with
  | mac =>
    obtain ⟨acc, c, d, heq⟩ := s.finishMac_eq r
    rw [heq] at hends ⊢
    exact ⟨hends rfl rfl rfl, rfl⟩
  | clamp =>
    obtain ⟨acc, c, d, heq, -⟩ := s.finishClamp_eq r
    rw [heq] at hends ⊢
    exact ⟨hends rfl rfl rfl, rfl⟩
  | chunk => exact ⟨hgoes _ rfl ⟨hop, hlive⟩ rfl h.answers, rfl⟩
  | moved q x hx => exact ⟨hgoes _ rfl (hq q x hx) rfl h.answers.advance, rfl⟩
  | closed q x hx => exact ⟨hgoes _ rfl (hq q x hx) rfl h.answers.advance, rfl⟩
  | failed q x hx hresponse => exact absurd (hok.symm.trans hresponse) (by decide)
  | silent q x hx hresponse => exact absurd (hok.symm.trans hresponse) (by decide)
  | finish =>
    rcases s.finishMemory_eq r with ⟨-, heq⟩ | ⟨-, heq⟩ <;> rw [heq] at hends ⊢
    · exact ⟨hends rfl rfl rfl, rfl⟩
    · exact ⟨hends rfl rfl rfl, rfl⟩

/-- R43, R225: left to itself, the machine takes the own steps of the command, and once it has ended neither does
anything. -/
theorem Undisturbed.step_eq {op : Instr} {s : State} (h : Undisturbed op s) (hturn : s.turn = .unit) :
    step s = exec op s := by
  rcases step_quiet s h.agenda with ⟨hn, hs⟩ | ⟨r, hr, hhung, -⟩ | ⟨r, hr, -, hs⟩
  · rw [hs, exec_idle op s hturn hn]
  · exact absurd ((h.running r hr).2.symm.trans hhung) (by decide)
  · rw [hs, (h.running r hr).1, ← hturn]

theorem Undisturbed.exec_next {op : Instr} {s t : State} (h : Undisturbed op s) (hturn : s.turn = .unit)
    (hnext : exec op s = .next t) : Undisturbed op t ∧ t.turn = .unit := by
  cases hr : s.run with
  | none =>
    rw [exec_idle op s hturn hr] at hnext
    cases hnext
    exact ⟨h, hturn⟩
  | some r =>
    obtain ⟨hop, hlive⟩ := h.running r hr
    rw [← hturn]
    exact (OwnStep.of_exec h.inv hturn hr hlive (hop.symm ▸ hnext)).undisturbed h hr

/-- k own steps of the command are k steps of the machine. -/
theorem Undisturbed.stepTimes_eq {op : Instr} {s : State} (h : Undisturbed op s) (hturn : s.turn = .unit) (k : Nat) :
    stepTimes k s = execTimes op k s := by
  induction k generalizing s with
  | zero => rfl
  | succ k ih =>
    rw [stepTimes, execTimes, h.step_eq hturn]
    cases hnext : exec op s with
    | next t =>
      obtain ⟨ht, hturn'⟩ := h.exec_next hturn hnext
      exact ih ht hturn'
    | fault f => rfl
    | refused f => rfl

/-- The unit's first step gives it the turn. -/
theorem stepTimes_succ_withTurn {s : State} {r : Run} (ha : s.agenda = []) (hr : s.run = some r) (k : Nat) :
    stepTimes (k + 1) { s with turn := .unit } = stepTimes (k + 1) s := by
  have hstep : step { s with turn := .unit } = step s := by
    simp [step, ha, State.quiet, State.unitTurn, hr]
  rw [stepTimes, stepTimes, hstep]

/-- Settles O59: the CMD write is the issue, and from there `Undisturbed.stepTimes_eq`. -/
theorem machineRunsWholeCommands : Obligations.MachineRunsWholeCommands := by
  intro op k s t hop hready hserves ha hk hwhole
  obtain ⟨k, rfl⟩ := Nat.exists_eq_add_of_le' hk
  have hissue := exec_of_ready hop hready
  have hcmd : step { s with agenda := [.regWrite (.offset 0x0C) 4 (encode op)] } =
      .next ({ s with turn := .host }.accept (capture op s)) := by
    rw [step_of_cmdWrite _ [] (encode op) op ⟨.offset 0x0C, rfl, rfl⟩ (decode_encode op), ← ha]
    exact hissue
  have hinv := stepKeepsInv _ _ (hready.inv.withAgenda _) hcmd
  have hstart : Undisturbed op { { s with turn := .host }.accept (capture op s) with turn := .unit } :=
    ⟨hinv.withTurn _ .unit, ha, hserves.answers, fun r hr => by cases hr; exact ⟨rfl, rfl⟩⟩
  rw [stepTimes, hcmd]
  simp only [wholeCommand, hissue] at hwhole
  rw [← hwhole, ← hstart.stepTimes_eq rfl]
  exact (stepTimes_succ_withTurn (s := { s with turn := .host }.accept (capture op s)) ha rfl k).symm

end Sys2Proof.Machine
end

section
/-! PROOFS. The bytes of samples and buffers, and what a command over them is refused (R61 to R65, R70, R74). -/

namespace Sys2Proof.Machine

/-! ## The bytes of a sample (R63) -/

/-- R63: what a sample store leaves at every byte. -/
theorem Memory.readByte_writeSample (m : Memory) (h : Memory.wf m) (e a : Nat) (v : Sample)
    (he : e + 2 ≤ Memory.size) : Memory.readByte (Memory.writeSample m e v) a =
      if a = e + 1 then v.extractLsb' 8 8 else if a = e then v.extractLsb' 0 8 else Memory.readByte m a := by
  unfold Memory.writeSample
  rw [Memory.readByte_writeByte _ (Memory.writeByte_wf _ h _ _) _ _ _ (by omega),
    Memory.readByte_writeByte _ h _ _ _ (by omega)]

/-- The lower 16 bits of four bytes are the two lower bytes. -/
theorem extractLsb'_low_append (b₃ b₂ b₁ b₀ : Byte) :
    BitVec.extractLsb' 0 16 (b₃ ++ b₂ ++ b₁ ++ b₀ : Word) = b₁ ++ b₀ := by
  rw [BitVec.append_assoc]
  exact BitVec.extractLsb'_append_eq_right

/-- The upper 16 bits of four bytes are the two upper bytes. -/
theorem extractLsb'_high_append (b₃ b₂ b₁ b₀ : Byte) :
    BitVec.extractLsb' 16 16 (b₃ ++ b₂ ++ b₁ ++ b₀ : Word) = b₃ ++ b₂ :=
  (BitVec.extractLsb'_append_eq_of_le (by decide)).trans BitVec.extractLsb'_append_eq_left

/-- Settles O33: a store byte by byte, and the 32-bit view by its two halves. -/
theorem littleEndian : Obligations.LittleEndian := by
  intro m e v hwf he
  have hbyte := fun a => Memory.readByte_writeSample m hwf e a v he
  refine ⟨rfl, ?_, ?_, fun a hlow hhigh => ?_, fun base k _ => ⟨?_, ?_⟩⟩
  · rw [hbyte, if_neg (by omega), if_pos rfl]
  · rw [hbyte, if_pos rfl]
  · rw [hbyte, if_neg hhigh, if_neg hlow]
  · have helem : elem base (2 * k) = base.toNat + 4 * k := by
      simp only [elem]
      omega
    rw [extractLsb'_low_append, helem]
    rfl
  · have helem : elem base (2 * k + 1) = base.toNat + 4 * k + 2 := by
      simp only [elem]
      omega
    rw [extractLsb'_high_append, helem]
    rfl

/-! ## The bytes of a buffer (R62) -/

/-- R62: the bytes of a buffer are the two bytes of each of its elements. -/
theorem inBuffer_iff_elem (k : Snapshot) (b : Word) (a : Nat) :
    inBuffer k b a ↔ ∃ i, i < k.n.toNat ∧ (a = elem b i ∨ a = elem b i + 1) := by
  simp only [inBuffer, Snapshot.bytes, elem]
  constructor
  · rintro ⟨hlow, hhigh⟩
    exact ⟨(a - b.toNat) / 2, by omega, by omega⟩
  · rintro ⟨i, hi, h | h⟩ <;> omega

/-- R204: a base that the alignment check passes is even. -/
theorem Snapshot.even_of_alignError {k : Snapshot} (h : k.alignError = none) {b : Word} (hb : b ∈ k.bases) :
    b.toNat % 2 = 0 := by
  have hbit : ¬b.getLsbD 0 = true := List.find?_eq_none.mp h b hb
  rw [BitVec.getLsbD, Nat.testBit_zero, decide_eq_true_eq] at hbit
  omega

/-- Settles O10: each element lies inside by `holds_elem`, and so does the buffer by its last one; evenness is the
alignment check. -/
theorem passedChecksKeepBuffersInside : Obligations.PassedChecksKeepBuffersInside := by
  intro k hop hchecked b hb
  have hinside : ∀ i, i < k.n.toNat → b.toNat + 2 * i + 2 ≤ Memory.size := fun i hi =>
    of_decide_eq_true (k.holds_elem hop.isMemory hchecked b hb i hi)
  simp only [Memory.size] at hinside
  refine ⟨?_, fun i hi => ⟨rfl, ?_, ?_⟩, inBuffer_iff_elem k b⟩
  · rcases Nat.eq_zero_or_pos k.n.toNat with hn | hn
    · have := b.isLt
      omega
    · have := hinside (k.n.toNat - 1) (by omega)
      omega
  · have := Snapshot.even_of_alignError (k.checks_of_issueError hop.isMemory (by omega) hchecked).1 hb
    simp only [elem]
    omega
  · have := hinside i hi
    simp only [elem]
    omega

/-! ## Ranges that meet (R65, R70) -/

/-- Two ranges meet exactly when a byte lies in both. -/
theorem rangesMeet_iff (x lx y ly : Nat) :
    rangesMeet x lx y ly = true ↔ ∃ a, (x ≤ a ∧ a < x + lx) ∧ y ≤ a ∧ a < y + ly := by
  simp only [rangesMeet, Bool.and_eq_true, decide_eq_true_eq]
  constructor
  · rintro ⟨⟨⟨hxy, hyx⟩, hx⟩, hy⟩
    exact ⟨max x y, by omega, by omega⟩
  · rintro ⟨a, ⟨hxa, hax⟩, hya, hay⟩
    omega

/-- The two bytes of an access meet a range exactly when one of them lies in it. -/
theorem rangesMeet_access_iff (e y ly : Nat) :
    rangesMeet e 2 y ly = true ↔ (y ≤ e ∧ e < y + ly) ∨ (y ≤ e + 1 ∧ e + 1 < y + ly) := by
  simp only [rangesMeet, Bool.and_eq_true, decide_eq_true_eq]
  omega

/-- R65: an access is to ordinary memory exactly when neither of its bytes lies in a device range. -/
theorem ordinary_eq_false_iff (t : Target) (e : Nat) :
    ordinary t e = false ↔ inDevice t e ∨ inDevice t (e + 1) := by
  simp only [ordinary, inDevice, List.all_eq_false, Bool.not_eq_true', Bool.not_eq_false, rangesMeet_access_iff,
    ← exists_or, ← and_or_left]

/-- R65: a memory command is in ordinary memory exactly when no byte of its buffers lies in a device range. -/
theorem Snapshot.inOrdinaryMemory_iff {k : Snapshot} (t : Target) (hop : k.op.isMemory = true) :
    k.inOrdinaryMemory t = true ↔ ¬ ∃ b ∈ k.bases, ∃ a, inBuffer k b a ∧ inDevice t a := by
  have hmeet : ∀ (b : Word) (d : Nat × Nat), rangesMeet b.toNat k.bytes d.1 d.2 = true ↔
      ∃ a, inBuffer k b a ∧ d.1 ≤ a ∧ a < d.1 + d.2 := fun b d => rangesMeet_iff _ _ _ _
  simp only [Snapshot.inOrdinaryMemory, hop, Bool.not_true, Bool.false_or, List.all_eq_true, Bool.not_eq_true',
    Bool.eq_false_iff, ne_eq, hmeet, inDevice]
  constructor
  · rintro h ⟨b, hb, a, ha, d, hd, hrange⟩
    exact h d hd b hb ⟨a, ha, hrange⟩
  · rintro h d hd b hb ⟨a, ha, hrange⟩
    exact h ⟨b, hb, a, ha, d, hd, hrange⟩

/-- R70 item 4: a host store is a race exactly when one of its bytes is borrowed. -/
theorem Snapshot.lendsForWrite_iff (k : Snapshot) (e : Nat) :
    k.lendsForWrite e = true ↔ Borrowed k e ∨ Borrowed k (e + 1) := by
  simp only [Snapshot.lendsForWrite, Borrowed, inBuffer, List.any_eq_true, rangesMeet_access_iff, ← exists_or,
    ← and_or_left]

/-- R70 item 4: a host load is a race exactly when one of its bytes is of a borrowed output. -/
theorem Snapshot.lendsForRead_iff (k : Snapshot) (e : Nat) :
    k.lendsForRead e = true ↔
      k.op.writesY = true ∧ (inBuffer k k.yAddr e ∨ inBuffer k k.yAddr (e + 1)) := by
  simp only [Snapshot.lendsForRead, inBuffer, Bool.and_eq_true, rangesMeet_access_iff]

/-! ## The transactions a strip may make next (R61, R68) -/

/-- What a transaction asks of its lane, by its kind. -/
theorem Xact.fits_iff (writes : Bool) (l : Lane) (x : Xact) :
    x.fits writes l ↔ (x = .readA x.lane ∧ l.a = none) ∨ (x = .readB x.lane ∧ l.b = none) ∨
      (x = .store x.lane ∧ writes = true ∧ l.a ≠ none ∧ l.b ≠ none ∧ l.stored = false) := by
  cases x with
  | readA j => simp [Xact.fits, Xact.lane]
  | readB j => simp [Xact.fits, Xact.lane]
  | store j => simp [Xact.fits, Xact.lane, Option.isSome_iff_ne_none]

/-- R68 item 3, O6: some draw picks each of the transactions. -/
theorem exists_pick_of_mem {xs : List Xact} {x : Xact} (h : x ∈ xs) : ∃ d, pick xs d = some x := by
  obtain ⟨d, hd, rfl⟩ := List.getElem_of_mem h
  exact ⟨d, by simp [pick, Nat.mod_eq_of_lt hd]⟩

/-- Settles O37: by the lane the transaction names, and there by its kind. -/
theorem enabledTransactions : Obligations.EnabledTransactions := by
  refine fun op ls => ⟨fun x => ?_, fun x hx => exists_pick_of_mem hx, fun x d h => pick_mem _ d x h⟩
  simp only [mem_enabledFrom, ← Xact.fits_iff, Nat.zero_add]
  constructor
  · rintro ⟨i, l, hl, rfl, hf⟩
    exact ⟨l, hl, hf⟩
  · rintro ⟨l, hl, hf⟩
    exact ⟨x.lane, l, hl, rfl, hf⟩

/-! ## A platform outside the model (R65, R74) -/

/-- R62: a transaction of an open strip lies inside the address space. -/
theorem State.holds_address {s : State} {r : Run} (hop : r.snap.op.isMemory = true) (hlegal : r.Legal s) {x : Xact}
    {d : Nat} (hpick : pick (enabledFrom r.snap.op.writesY 0 r.lanes) d = some x) :
    Memory.holds (x.address r.snap s.processed.toNat) = true := by
  obtain ⟨l, hl, hf⟩ := pick_fits _ _ _ _ hpick
  have hlane : x.lane < r.lanes.length := (List.getElem?_eq_some_iff.mp hl).1
  have hinside := hlegal.inside hop
  rw [Xact.address_eq_elem]
  exact r.snap.holds_elem hop hlegal.checked _ (x.base_mem_bases r.snap l hf) _ (by omega)

/-- R65, R74: what becomes of a transaction inside the address space. -/
theorem State.transact_of_pick {s : State} {r : Run} {x : Xact}
    (hpick : pick (enabledFrom r.snap.op.writesY 0 r.lanes) s.choice = some x)
    (hholds : Memory.holds (x.address r.snap s.processed.toNat) = true) :
    s.transact r = if s.target.coherent = false then .refused .notCoherent
      else if ordinary s.target (x.address r.snap s.processed.toNat) = false then .refused .notOrdinaryMemory
      else .next (s.afterChoice.respond r x) := by
  simp [State.transact, hpick, hholds]

/-- Settles O45: the issue by its cases and the bytes of the buffers, the own step by the transaction that is picked. -/
theorem platformRefusals : Obligations.PlatformRefusals := by
  constructor
  · intro op s hop hturn hidle hchecked misplaced
    have hplaced : (capture op s).inOrdinaryMemory s.target = true ↔ ¬ misplaced :=
      Snapshot.inOrdinaryMemory_iff s.target hop.isMemory
    have hne : op ≠ .nop := by
      rintro rfl
      exact absurd hop.isMemory (by decide)
    rw [exec_host op hne s hturn]
    rcases s.issue_cases op with ⟨hb, -⟩ | ⟨-, code, addr, he, -⟩ | ⟨-, -, ho, hissue⟩ | ⟨-, -, ho, hissue⟩
    · exact absurd (hb.symm.trans hidle) (by decide)
    · exact absurd (he.symm.trans hchecked) (by simp)
    · exact ⟨fun hm => absurd hm (hplaced.mp ho), fun _ => ⟨_, _, hissue, rfl, rfl⟩⟩
    · exact ⟨fun _ => hissue, fun hm => absurd (ho.symm.trans (hplaced.mpr hm)) (by decide)⟩
  · intro op s r hop ⟨hinv, hturn, hrun, hsnap, hlive⟩ hopen
    subst hsnap
    have hlegal := hinv.running r hrun
    have hexec : exec r.snap.op s = s.transact r := by
      rw [exec_memory_unit hop s r hturn hrun rfl hlive, State.stripStep_open _ _ _ _ hopen]
    have hpicked : ∀ x, pick (enabledFrom r.snap.op.writesY 0 r.lanes) s.choice = some x → _ := fun x hx =>
      State.transact_of_pick hx (State.holds_address hop.isMemory hlegal hx)
    rw [hexec]
    refine ⟨fun hc => ?_, fun x hx hc hdevice => ?_⟩
    · obtain ⟨x, hx⟩ := pick_of_unfinished _ _ s.choice (hlegal.unfinished hopen)
      rw [hpicked x hx, if_pos hc]
    · rw [hpicked x hx, if_neg (by simp [hc]), if_pos ((ordinary_eq_false_iff _ _).mpr hdevice)]

end Sys2Proof.Machine
end

section
/-! PROOFS. What every step keeps of the loans and of the running command's snapshot, and the host's accesses to borrowed
buffers (R42, R65, R70, R104, R240, R241). Nothing here asks for the invariant, which the inversion `StepOf.of_step`
needs. -/

namespace Sys2Proof.Machine

/-! ## What the unit keeps in every state: the installation, the loans and the snapshot (R8, R42, R70) -/

/-- The unit leaves the installation and the loans alone, and a command that goes on keeps its snapshot `k`. -/
structure SnapshotKept (k : Snapshot) (s t : State) : Prop where
  target : t.target = s.target
  loans : t.loans = s.loans
  snap : ∀ r, t.run = some r → r.snap = k

/-- The command goes on with the run `r`. -/
theorem SnapshotKept.goesOn {s t : State} {r : Run} (htarget : t.target = s.target) (hloans : t.loans = s.loans)
    (hrun : t.run = some r) : SnapshotKept r.snap s t :=
  ⟨htarget, hloans, fun _ hr => Option.some.inj (hrun.symm.trans hr) ▸ rfl⟩

/-- The command ends. -/
theorem SnapshotKept.ends {k : Snapshot} {s t : State} (htarget : t.target = s.target) (hloans : t.loans = s.loans)
    (hrun : t.run = none) : SnapshotKept k s t :=
  ⟨htarget, hloans, fun _ hr => by simp [hrun] at hr⟩

theorem State.settleStrip_snapshotKept (s : State) (r : Run) : SnapshotKept r.snap s (s.settleStrip r) := by
  rcases s.settleStrip_cases r with ⟨-, h⟩ | ⟨-, h⟩ <;> rw [h]
  · exact .goesOn (r := r.closed) rfl rfl rfl
  · exact .goesOn rfl rfl rfl

theorem State.perform_snapshotKept (s : State) (r : Run) (x : Xact) (l : Lane) (hl : r.lanes[x.lane]? = some l)
    (hf : x.fits r.snap.op.writesY l) : SnapshotKept r.snap s (s.perform r x) := by
  rw [s.perform_of_fits r x l hl hf]
  exact { { s with mem := s.memAfter r x }.settleStrip_snapshotKept
    { r with lanes := r.lanesAfter x (Memory.readSample s.mem (x.address r.snap s.processed.toNat)) } with }

theorem State.busError_snapshotKept (s : State) (r : Run) (addr : Nat) (k : Snapshot) :
    SnapshotKept k s (s.busError r addr) := by
  obtain ⟨m, c, d, -, ⟨-, -, h⟩ | ⟨-, -, h⟩⟩ := s.busError_eq r addr <;> rw [h] <;> exact .ends rfl rfl rfl

theorem State.transact_snapshotKept {s t : State} {r : Run} (h : s.transact r = .next t) :
    SnapshotKept r.snap s t := by
  rcases s.transact_cases r _ h with ⟨-, ht⟩ | ⟨x, l, -, hl, hf, ⟨-, ht⟩ | ⟨-, ht⟩ | ⟨-, ht⟩ | ⟨-, -, -, ht⟩⟩
  all_goals cases ht
  · exact { s.afterChoice.settleStrip_snapshotKept r with }
  · unfold State.respond
    split
    · exact { s.afterChoice.afterResponse.perform_snapshotKept r x l hl hf with }
    · exact { s.afterChoice.afterResponse.busError_snapshotKept r _ r.snap with }
    · exact .goesOn (r := { r with hung := true }) rfl rfl rfl

theorem State.takeChunk_snapshotKept {s t : State} {r : Run} (h : s.takeChunk r = .next t) :
    SnapshotKept r.snap s t := by
  rcases s.takeChunk_cases r with ⟨-, -, hc⟩ | ⟨-, hc⟩ <;> rw [hc] at h <;> cases h
  exact .goesOn (r := r.openStrip _) rfl rfl rfl

/-- R201: the completion of a memory command ends it. -/
theorem State.finishMemory_snapshotKept (s : State) (r : Run) (k : Snapshot) :
    SnapshotKept k s (s.finishMemory r.snap.op r) := by
  rcases s.finishMemory_eq r with ⟨-, h⟩ | ⟨-, h⟩ <;> rw [h] <;> exact .ends rfl rfl rfl

/-- The own step of a command, in every state. -/
theorem exec_snapshotKept {s t : State} {r : Run} (hturn : s.turn = .unit) (hrun : s.run = some r)
    (h : exec r.snap.op s = .next t) : SnapshotKept r.snap s t := by
  cases hhung : r.hung with
  | true =>
    cases (exec_hung s r hturn hrun hhung _).symm.trans h
    exact .goesOn rfl rfl hrun
  | false =>
    have hmemory : IsMemoryCommand r.snap.op → SnapshotKept r.snap s t := by
      intro hop
      rw [exec_memory_unit hop s r hturn hrun rfl hhung] at h
      rcases s.stripStep_cases r (takesCapin r.snap.op s.target) (s.finishMemory r.snap.op) with
        ⟨-, hs⟩ | ⟨-, -, -, hs⟩ | ⟨-, -, -, hs⟩ | ⟨-, -, hs⟩ <;> rw [hs] at h
      · exact State.transact_snapshotKept h
      · exact State.takeChunk_snapshotKept h
      · exact State.transact_snapshotKept (r := r.openStrip 1) h
      · cases h
        exact s.finishMemory_snapshotKept r r.snap
    cases hop : r.snap.op with
    | nop =>
      rw [hop] at h
      cases h
      exact .goesOn rfl rfl hrun
    | mac =>
      rw [hop, exec_mac_unit s r hturn hrun hop hhung] at h
      cases h
      obtain ⟨acc, c, d, heq⟩ := s.finishMac_eq r
      exact heq ▸ .ends rfl rfl rfl
    | clamp =>
      rw [hop, exec_clamp_unit s r hturn hrun hop hhung] at h
      cases h
      obtain ⟨acc, c, d, heq, -⟩ := s.finishClamp_eq r
      exact heq ▸ .ends rfl rfl rfl
    | axpyRef => exact hmemory (.inl hop)
    | axpyVec => exact hmemory (.inr (.inl hop))
    | compare => exact hmemory (.inr (.inr hop))

/-! ## What every step keeps (R65, R70) -/

/-- R70 item 4, R240: the next event is one that ends the loans. -/
def LoansEnd (s : State) : Prop :=
  s.agenda.head? = some .reset ∨ (s.agenda.head? = some .irqSample ∧ s.irq = true) ∨
    (s.status.busy = false ∧ (s.agenda.head? = some .wait ∨ ∃ rest, s.readsNext 0x10 rest))

/-- What a step keeps in every state: the installation; the loans, but for the events that end them; and a command that
runs has the snapshot of the one that ran, or was accepted with its buffers in ordinary memory. -/
structure PlacementKept (s t : State) : Prop where
  target : t.target = s.target
  loans : LoansEnd s ∨ ∀ k ∈ s.loans, k ∈ t.loans
  snap : ∀ r', t.run = some r' →
    (∃ r, s.run = some r ∧ r'.snap = r.snap) ∨ r'.snap.inOrdinaryMemory s.target = true

/-- The installation, the loans and the running command are as they were. -/
theorem PlacementKept.of_eq {s t : State} (htarget : t.target = s.target) (hloans : t.loans = s.loans)
    (hrun : t.run = s.run) : PlacementKept s t :=
  ⟨htarget, .inr (by simp [hloans]), fun r hr => .inl ⟨r, hrun ▸ hr, rfl⟩⟩

/-- The running command ends. -/
theorem PlacementKept.of_ended {s t : State} (htarget : t.target = s.target)
    (hloans : LoansEnd s ∨ t.loans = s.loans) (hrun : t.run = none) : PlacementKept s t :=
  ⟨htarget, hloans.imp_right fun h => by simp [h], fun _ hr => by simp [hrun] at hr⟩

theorem PlacementKept.of_exec {s t : State} {r : Run} (rest : List Event) (hrun : s.run = some r)
    (h : exec r.snap.op { s with agenda := rest, turn := .unit } = .next t) : PlacementKept s t := by
  obtain ⟨htarget, hloans, hsnap⟩ := exec_snapshotKept (s := { s with agenda := rest, turn := .unit }) rfl hrun h
  exact ⟨htarget, .inr (by simp [hloans]), fun r' hr' => .inl ⟨r, hrun, hsnap r' hr'⟩⟩

/-- R200, R65: a CMD write. -/
theorem PlacementKept.of_issueWord {s t : State} {w : Word} {rest : List Event}
    (h : { s with agenda := rest }.issueWord w = .next t) : PlacementKept s t := by
  cases hd : decode w with
  | illegal why =>
    simp only [State.issueWord, hd, State.issueIllegal] at h
    cases h
    split
    · exact .of_eq rfl rfl rfl
    · exact .of_ended rfl (.inr rfl) rfl
  | command i =>
    by_cases hi : i = .nop
    · subst hi
      rw [State.issueWord_nop _ w hd] at h
      cases h
      exact .of_eq rfl rfl rfl
    · rw [State.issueWord_command _ w i hd hi] at h
      rcases { s with agenda := rest, turn := .host }.issue_cases i with
        ⟨-, hc⟩ | ⟨-, code, addr, -, hc⟩ | ⟨-, -, hplaced, hc⟩ | ⟨-, -, -, hc⟩ <;> rw [hc] at h <;> cases h
      · exact .of_eq rfl rfl rfl
      · exact .of_ended rfl (.inr rfl) rfl
      · refine ⟨rfl, .inr fun k hk => ?_, fun r hr => ?_⟩
        · rw [State.accept_loans]
          split
          · exact List.mem_cons_of_mem _ hk
          · exact hk
        · cases hr
          exact .inr hplaced

/-- R49: a register write. -/
theorem PlacementKept.of_writeReg (s : State) (rest : List Event) (reg : Reg) (w : Word) :
    PlacementKept s ({ s with agenda := rest }.writeReg reg w) := by
  refine ⟨by simp, .inr fun k hk => by simpa using hk, fun r' hr' => ?_⟩
  rw [State.writeReg_run] at hr'
  split at hr'
  · obtain ⟨r, hr, rfl⟩ := Option.map_eq_some_iff.mp hr'
    exact .inl ⟨r, hr, by rw [Run.raceAcc_eq]⟩
  · exact .inl ⟨r', hr', rfl⟩

/-- R48, R240: a register read. -/
theorem PlacementKept.of_readReg {s : State} (rest : List Event) (reg : Reg)
    (hloans : reg = .status → s.status.busy = false → LoansEnd s) :
    PlacementKept s ({ s with agenda := rest }.readReg reg) := by
  refine ⟨by simp, ?_, fun r' hr' => ?_⟩
  · rw [State.readReg_loans]
    split
    · next h => exact .inl (hloans h.1 h.2)
    · exact .inr fun _ hk => hk
  · rw [State.readReg_run] at hr'
    split at hr'
    · obtain ⟨r, hr, rfl⟩ := Option.map_eq_some_iff.mp hr'
      exact .inl ⟨r, hr, rfl⟩
    · exact .inl ⟨r', hr', rfl⟩

/-- What a step keeps, whatever the state: by the event it handles. -/
theorem PlacementKept.of_step {s t : State} (h : step s = .next t) : PlacementKept s t := by
  cases ha : s.agenda with
  | nil =>
    rcases step_quiet s ha with ⟨-, hs⟩ | ⟨r, -, -, hs⟩ | ⟨r, hr, -, hs⟩ <;> rw [hs] at h
    · cases h
      exact .of_eq rfl rfl rfl
    · cases h
    · exact .of_exec s.agenda hr h
  | cons e rest =>
    have hhead : s.agenda.head? = some e := by rw [ha]; rfl
    rw [step_event s e rest ha] at h
    cases e with
    | reset =>
      cases h
      exact .of_ended rfl (.inl (.inl hhead)) rfl
    | unit =>
      simp only [State.handle, State.unitTurn] at h
      split at h
      · cases h
        exact .of_eq rfl rfl rfl
      · next r hr => exact .of_exec rest hr h
    | regWrite place size w =>
      simp only [State.handle, State.hostWrite] at h
      split at h
      · cases h
      · split at h
        · exact .of_issueWord h
        · cases h
          exact .of_writeReg s rest _ w
    | regRead place size =>
      simp only [State.handle, State.hostRead] at h
      split at h <;> cases h
      next reg hport =>
        obtain ⟨rfl, o, hplace, ho⟩ := portRegister_eq_some.mp hport
        refine .of_readReg rest reg fun hreg hidle => .inr (.inr ⟨hidle, .inr ⟨rest, place, ?_, ha⟩⟩)
        subst hreg
        obtain rfl : o = 0x10 := (registerAt_eq_some ho).resolve_right (by simp)
        exact hplace
    | wait =>
      have hread := PlacementKept.of_readReg rest .status fun _ hidle => .inr (.inr ⟨hidle, .inl hhead⟩)
      simp only [State.handle, State.hostWait] at h
      split at h
      · cases h
        exact hread
      · split at h <;> cases h
        exact { hread with }
    | irqSample =>
      cases h
      refine ⟨rfl, ?_, fun r hr => .inl ⟨r, hr, rfl⟩⟩
      cases hirq : s.irq with
      | true => exact .inl (.inr (.inl ⟨hhead, hirq⟩))
      | false =>
        have hirq : { s with agenda := rest }.irq = false := hirq
        exact .inr fun k hk => by simpa [State.hostIrqSample, hirq] using hk
    | memWrite e v =>
      simp only [State.handle, State.hostStore] at h
      split_ifs at h
      cases h
      exact .of_eq rfl rfl rfl
    | memRead e =>
      simp only [State.handle, State.hostLoad] at h
      split_ifs at h
      cases h
      exact .of_eq rfl rfl rfl

/-! ## The host's own accesses (R104, R241) -/

/-- R70 item 4: some loan makes a host store a race exactly when one of its bytes is borrowed. -/
theorem any_lendsForWrite_iff (loans : List Snapshot) (e : Nat) :
    loans.any (·.lendsForWrite e) = true ↔ ∃ k ∈ loans, Borrowed k e ∨ Borrowed k (e + 1) := by
  simp only [List.any_eq_true, Snapshot.lendsForWrite_iff]

/-- R70 item 4: some loan makes a host load a race exactly when one of its bytes is of a borrowed output. -/
theorem any_lendsForRead_iff (loans : List Snapshot) (e : Nat) :
    loans.any (·.lendsForRead e) = true ↔
      ∃ k ∈ loans, k.op.writesY = true ∧ (inBuffer k k.yAddr e ∨ inBuffer k k.yAddr (e + 1)) := by
  simp only [List.any_eq_true, Snapshot.lendsForRead_iff]

/-- R241: a host store inside the address space is a race or is performed. -/
theorem step_memWrite {s : State} {rest : List Event} {e : Nat} {v : Sample} (he : e + 2 ≤ 2 ^ 32)
    (ha : s.agenda = .memWrite e v :: rest) :
    step s = if s.loans.any (·.lendsForWrite e) then .refused .race
      else .next { s with agenda := rest, mem := Memory.writeSample s.mem e v } := by
  have hholds : Memory.holds e = true := decide_eq_true he
  simp [step_event s _ rest ha, State.handle, State.hostStore, hholds]

/-- R241: a host load inside the address space is a race or is performed. -/
theorem step_memRead {s : State} {rest : List Event} {e : Nat} (he : e + 2 ≤ 2 ^ 32)
    (ha : s.agenda = .memRead e :: rest) :
    step s = if s.loans.any (·.lendsForRead e) then .refused .race
      else .next { s with agenda := rest, rdata := (Memory.readSample s.mem e).setWidth 32 } := by
  have hholds : Memory.holds e = true := decide_eq_true he
  simp [step_event s _ rest ha, State.handle, State.hostLoad, hholds, zext32]

/-- Settles O34: a running command's loan is part of the invariant, a loan's end is `PlacementKept`, and the host's
accesses are `step_memWrite` and `step_memRead`. -/
theorem borrowedBuffersAreRefused : Obligations.BorrowedBuffersAreRefused := by
  refine ⟨fun s r hinv hr hop => (hinv.running r hr).borrowed hop.isMemory, fun s t k hk hstep => ?_,
    fun s rest e v he ha => ?_, fun s rest e he ha => ?_⟩
  · rcases (PlacementKept.of_step hstep).loans with hend | hkept
    · exact .inr hend
    · exact .inl (hkept k hk)
  · rw [step_memWrite he ha, ← any_lendsForWrite_iff]
    exact ⟨fun hlent => if_pos hlent, fun hfree => if_neg hfree⟩
  · intro lent
    rw [step_memRead he ha]
    exact ⟨fun hlent => if_pos ((any_lendsForRead_iff _ e).mpr hlent),
      fun hfree => if_neg (hfree ∘ (any_lendsForRead_iff _ e).mp)⟩

end Sys2Proof.Machine
end

section
/-! PROOFS. Which steps change memory, and that the unit stays in ordinary memory (R61, R65, R104, R209, R230). -/

namespace Sys2Proof.Machine

/-! ## Which steps change memory (R61, R104, R230) -/

/-- R61: a byte that the command may write: it writes y, and the byte is one of y's. -/
def Snapshot.MayWrite (k : Snapshot) (a : Nat) : Prop :=
  IsAxpy k.op ∧ inBuffer k k.yAddr a

/-- R61: a command that writes y is one of the two AXPY commands. -/
theorem isAxpy_of_writesY {op : Instr} (h : op.writesY = true) : IsAxpy op := by
  cases op with
  | axpyRef => exact .inl rfl
  | axpyVec => exact .inr rfl
  | nop => cases h
  | mac => cases h
  | clamp => cases h
  | compare => cases h

/-- R209, R230: abandoning a strip changes only bytes that its command may write. -/
theorem State.spill_readByte {s : State} {q : Run} (hlegal : q.Legal s) (hwf : Memory.wf s.mem) {a : Nat}
    (ha : ¬q.snap.MayWrite a) : Memory.readByte (s.spill q).mem a = Memory.readByte s.mem a := by
  unfold State.spill
  split
  · next hw =>
    have hop := isAxpy_of_writesY hw
    have hinside := hlegal.inside hop.isMemory
    have hout : ¬inBuffer q.snap q.snap.yAddr a := fun hin => ha ⟨hop, hin⟩
    refine (spillFrom_leaves q.snap s.processed.toNat q.lanes 0 s hwf fun i hi =>
      q.snap.holds_elem hop.isMemory hlegal.checked _ (q.snap.yAddr_mem_bases hw) _ (by omega)).1 a ?_
    simp only [inBuffer, Snapshot.bytes, elem] at *
    omega
  · rfl

/-- R61: a transaction changes only bytes that its command may write. -/
theorem NextTransaction.readByte_memAfter {s : State} {r q : Run} {x : Xact} (h : NextTransaction s r q x)
    (hwf : Memory.wf s.mem) {a : Nat} (ha : ¬q.snap.MayWrite a) :
    Memory.readByte (s.memAfter q x) a = Memory.readByte s.mem a := by
  obtain ⟨l, hl, hf⟩ := h.fits
  cases x with
  | readA j => rfl
  | readB j => rfl
  | store j =>
    have hop := isAxpy_of_writesY hf.1
    have hlane : j < q.lanes.length := (List.getElem?_eq_some_iff.mp hl).1
    have hinside := h.legal.inside hop.isMemory
    have hout : ¬inBuffer q.snap q.snap.yAddr a := fun hin => ha ⟨hop, hin⟩
    rw [inBuffer_iff_elem] at hout
    refine s.memAfter_readByte q (.store j) hwf a ⟨fun he => hout ⟨_, ?_, .inl he⟩, fun he => hout ⟨_, ?_, .inr he⟩⟩ <;>
      simp only [Xact.lane] <;> omega

/-- R61, R209: an own step changes only bytes that its command may write. -/
theorem OwnStep.readByte_mem {s t : State} {r : Run} (hwf : Memory.wf s.mem) (h : OwnStep s r t) {a : Nat}
    (ha : ¬r.snap.MayWrite a) : Memory.readByte t.mem a = Memory.readByte s.mem a := by
  cases h with
  | mac =>
    obtain ⟨acc, c, d, heq⟩ := s.finishMac_eq r
    rw [heq]
    rfl
  | clamp =>
    obtain ⟨acc, c, d, heq, -⟩ := s.finishClamp_eq r
    rw [heq]
    rfl
  | chunk => rfl
  | moved q x hq => exact hq.readByte_memAfter hwf (hq.snap.symm ▸ ha)
  | closed q x hq => exact hq.readByte_memAfter hwf (hq.snap.symm ▸ ha)
  | failed q x hq =>
    obtain ⟨m, c, d, -, ⟨-, hm, heq⟩ | ⟨-, hm, heq⟩⟩ :=
      s.afterChoice.afterResponse.busError_eq q (x.address q.snap s.processed.toNat) <;> rw [heq]
    · exact hm ▸ rfl
    · subst hm
      exact State.spill_readByte (s := s.afterChoice.afterResponse) (hq.legal.congr rfl rfl rfl) hwf (hq.snap.symm ▸ ha)
  | silent => rfl
  | finish =>
    rcases s.finishMemory_eq r with ⟨-, heq⟩ | ⟨-, heq⟩ <;> rw [heq] <;> rfl

/-- R230: reset changes only bytes that the command it abandons may write. -/
theorem State.resetUnit_readByte {s : State} (hinv : s.Inv) {a : Nat}
    (ha : ∀ r, s.run = some r → ¬r.snap.MayWrite a) :
    Memory.readByte s.resetUnit.mem a = Memory.readByte s.mem a := by
  change Memory.readByte s.abandon.mem a = _
  unfold State.abandon
  split
  · next r hr => exact State.spill_readByte (hinv.running r hr) hinv.memory (ha r hr)
  · rfl

/-- R61, R104, R230: a step leaves every byte that neither the running command may write nor the host stores. -/
theorem StepOf.readByte_mem {s t : State} (hinv : s.Inv) (h : StepOf s t) {a : Nat}
    (hunit : ∀ r, s.run = some r → ¬r.snap.MayWrite a)
    (hhost : ∀ e v rest, s.agenda = .memWrite e v :: rest → a ≠ e ∧ a ≠ e + 1) :
    Memory.readByte t.mem a = Memory.readByte s.mem a := by
  cases h with
  | own rest r _ _ hr _ h =>
    exact OwnStep.readByte_mem (s := { s with agenda := rest, turn := .unit }) hinv.memory h (hunit r hr)
  | reset rest => exact State.resetUnit_readByte (hinv.withAgenda rest) hunit
  | store e v rest ha => exact Memory.readByte_writeSample_other _ hinv.memory e a v (hhost e v rest ha)
  | write => rw [State.writeReg_mem]
  | read => rw [State.readReg_mem]
  | waitIdle => rw [State.readReg_mem]
  | waitBusy rest r ha hr => simp
  | quiet | idle | stuck | nop | dropped | illegal | rejected | accepted | irqSample | load => rfl

/-- Settles O35: the contrapositive of `StepOf.readByte_mem`. -/
theorem onlyAxpyAndHostStoresWriteMemory : Obligations.OnlyAxpyAndHostStoresWriteMemory := by
  intro s t a hinv hstep hchanged
  by_contra hnone
  obtain ⟨hunit, hhost⟩ := not_or.mp hnone
  refine hchanged ((StepOf.of_step hinv hstep).readByte_mem hinv (fun r hr hmay => hunit ⟨r, hr, hmay⟩) ?_)
  exact fun e v rest ha => not_or.mp fun he => hhost ⟨e, v, rest, ha, he⟩

/-! ## Buffers stay in ordinary memory (R65) -/

/-- R65: a transaction of a command in ordinary memory is not refused for its place. -/
theorem State.transact_placed {s : State} {r : Run} (hop : r.snap.op.isMemory = true) (hlegal : r.Legal s)
    (hplaced : r.snap.inOrdinaryMemory s.target = true) : s.transact r ≠ .refused .notOrdinaryMemory := by
  intro h
  rcases s.transact_cases r _ h with ⟨-, ho⟩ | ⟨x, l, -, hl, hf, ⟨-, ho⟩ | ⟨-, ho⟩ | ⟨hord, -⟩ | ⟨-, -, -, ho⟩⟩
  · cases ho
  · cases ho
  · cases ho
  · have := (State.address_in_memory hop hlegal.checked (hlegal.inside hop) hplaced x l hl hf).2
    exact absurd (hord.symm.trans this) (by decide)
  · cases ho

/-- R65: no own step of a command in ordinary memory is refused for its place. -/
theorem Running.exec_placed {op : Instr} {s : State} {r : Run} (h : Running op s r) (hplaced : s.Placed) :
    exec op s ≠ .refused .notOrdinaryMemory := by
  obtain ⟨hinv, hturn, hrun, rfl, hlive⟩ := h
  have hlegal := hinv.running r hrun
  have hmemory : IsMemoryCommand r.snap.op → exec r.snap.op s ≠ .refused .notOrdinaryMemory := by
    intro hop
    have hinside := hlegal.inside hop.isMemory
    rw [exec_memory_unit hop s r hturn hrun rfl hlive]
    rcases s.stripStep_cases r (takesCapin r.snap.op s.target) (s.finishMemory r.snap.op) with
      ⟨-, hs⟩ | ⟨-, -, -, hs⟩ | ⟨hl, hp, -, hs⟩ | ⟨-, -, hs⟩ <;> rw [hs]
    · exact State.transact_placed hop.isMemory hlegal (hplaced r hrun)
    · rcases s.takeChunk_cases r with ⟨-, -, hc⟩ | ⟨-, hc⟩ <;> simp [hc]
    · have hone := hlegal.openStrip hop.isMemory 1 (by omega) (Target.vlmax_pos hinv.target) fun _ => Nat.le_refl 1
      exact State.transact_placed hop.isMemory hone (hplaced r hrun)
    · simp
  cases hop : r.snap.op with
  | nop => exact absurd hop hlegal.accepted
  | mac => simp [exec_mac_unit s r hturn hrun hop hlive]
  | clamp => simp [exec_clamp_unit s r hturn hrun hop hlive]
  | axpyRef => exact hop ▸ hmemory (.inl hop)
  | axpyVec => exact hop ▸ hmemory (.inr (.inl hop))
  | compare => exact hop ▸ hmemory (.inr (.inr hop))

/-- R65: a command in ordinary memory may write no byte of a device range. -/
theorem Snapshot.not_inDevice {k : Snapshot} {t : Target} (hplaced : k.inOrdinaryMemory t = true) {a : Nat}
    (h : k.MayWrite a) : ¬inDevice t a := fun hdevice =>
  (k.inOrdinaryMemory_iff t h.1.isMemory).mp hplaced ⟨k.yAddr, k.yAddr_mem_bases h.1.writesY, a, h.2, hdevice⟩

/-- R65: that the running command is in ordinary memory is kept by every step. -/
theorem State.Placed.of_step {s t : State} (h : s.Placed) (hstep : step s = .next t) : t.Placed := by
  intro r' hr'
  have hkept := PlacementKept.of_step hstep
  rw [hkept.target]
  rcases hkept.snap r' hr' with ⟨r, hr, hsnap⟩ | haccepted
  · exact hsnap ▸ h r hr
  · exact haccepted

/-- Settles O46: the step by `PlacementKept`; memory, by which steps change it (O35). -/
theorem buffersStayInOrdinaryMemory : Obligations.BuffersStayInOrdinaryMemory := by
  refine ⟨fun t r hr => ?_, fun s t h hstep => h.of_step hstep, fun op s r h hplaced => h.exec_placed hplaced,
    fun s t a hinv hplaced hstep hdevice hchanged => ?_⟩
  · cases hr
  · rcases onlyAxpyAndHostStoresWriteMemory s t a hinv hstep hchanged with ⟨r, hr, hmay⟩ | ⟨e, v, rest, ha, -⟩
    · exact absurd hdevice (Snapshot.not_inDevice (hplaced r hr) hmay)
    · exact ⟨e, v, by rw [ha]; rfl⟩

end Sys2Proof.Machine
end

section
/-! PROOFS. The encoding: what the decoder says of a word by its fields and by its value, and that it and the encoder
agree (R90, R92, R93). -/

namespace Sys2Proof

open Machine

/-! ## The opcode -/

/-- R92: an opcode selects the command that has it, and no other. -/
theorem commandOf_eq_command_iff (op : BitVec 4) (i : Instr) : commandOf op = .command i ↔ op = i.opcode := by
  cases i <;> revert op <;> decide

/-- R92: 0x0 to 0x5 are assigned, each in its row of the opcode map. -/
theorem commandOf_of_assigned {op : BitVec 4} (h : op ≤ 5#4) :
    ∃ row ∈ opcodeTable, commandOf op = .command row.op := by
  revert op
  decide

/-- R92: 0x6 to 0xF are reserved. -/
theorem commandOf_of_reserved {op : BitVec 4} (h : 6#4 ≤ op) : commandOf op = .illegal (.reservedOpcode op) := by
  revert op
  decide

/-! ## The word by its fields -/

/-- R93: with bits 31:4 zero the opcode alone decides. -/
theorem decode_of_reservedZero {w : Word} (h : (cmdwOf w).rsv = 0#28) : decode w = commandOf (cmdwOf w).op := by
  simp [decode, Cmdw.reservedZero, h]

/-- R93: a word with bits 31:4 not zero is illegal, whatever its opcode. -/
theorem decode_of_reservedBits {w : Word} (h : (cmdwOf w).rsv ≠ 0#28) :
    decode w = .illegal (.reservedBits (cmdwOf w).rsv) := by
  have hreserved : (cmdwOf w).reservedZero = false := beq_false_of_ne h
  simp [decode, hreserved]

/-- R90: a word is its two fields, RSV above OP. -/
theorem append_cmdwOf (w : Word) : (cmdwOf w).rsv ++ (cmdwOf w).op = w :=
  BitVec.extractLsb'_append_extractLsb'

/-- R93: a word is a command when RSV is 0 and OP is the command's. -/
theorem decode_eq_command_iff_fields (w : Word) (i : Instr) :
    decode w = .command i ↔ (cmdwOf w).rsv = 0#28 ∧ (cmdwOf w).op = i.opcode := by
  by_cases h : (cmdwOf w).rsv = 0#28
  · simp [decode_of_reservedZero h, commandOf_eq_command_iff, h]
  · simp [decode_of_reservedBits h, h]

/-- R92: each command has one word. -/
theorem decode_eq_command_iff (w : Word) (i : Instr) : decode w = .command i ↔ w = encode i := by
  constructor
  · intro h
    obtain ⟨hrsv, hop⟩ := (decode_eq_command_iff_fields w i).mp h
    calc w = (cmdwOf w).rsv ++ (cmdwOf w).op := (append_cmdwOf w).symm
      _ = encode i := by rw [hrsv, hop]; rfl
  · rintro rfl
    exact decode_encode i

theorem cmdwOf_encode (i : Instr) : cmdwOf (encode i) = i.cmdw := by
  cases i <;> rfl

/-! ## The legal words -/

theorem Cmdw.wf_iff (c : Cmdw) : c.wf = true ↔ c.rsv = 0#28 ∧ c.op ≤ 5#4 := by
  simp [Cmdw.wf, Cmdw.reservedZero, Cmdw.opcodeAssigned]

/-- R95: no command has an operand that could make it ill-formed. -/
theorem Instr.wf_eq_true (i : Instr) : i.wf = true := by
  cases i <;> rfl

/-- R92, R94: the words that are commands are those legal in the format. -/
theorem exists_decode_eq_command_iff (w : Word) : (∃ i, decode w = .command i) ↔ (cmdwOf w).wf = true := by
  constructor
  · rintro ⟨i, h⟩
    rw [(decode_eq_command_iff w i).mp h, cmdwOf_encode]
    exact i.wf_eq_true
  · intro h
    obtain ⟨hrsv, hop⟩ := (Cmdw.wf_iff _).mp h
    obtain ⟨row, -, hrow⟩ := commandOf_of_assigned hop
    exact ⟨row.op, (decode_of_reservedZero hrsv).trans hrow⟩

/-- R93: every word is either a command or illegal. -/
theorem exists_decode_eq_illegal_iff (w : Word) : (∃ why, decode w = .illegal why) ↔ ¬(cmdwOf w).wf = true := by
  rw [← exists_decode_eq_command_iff]
  cases decode w <;> simp

/-- R92: read as a number, the legal words are 0 to 5. -/
theorem cmdwOf_wf_iff (w : Word) : (cmdwOf w).wf = true ↔ w.toNat < 6 := by
  have hw := w.isLt
  rw [Cmdw.wf_iff, ← BitVec.toNat_inj, BitVec.le_def]
  simp only [cmdwOf, BitVec.extractLsb'_toNat, Nat.shiftRight_eq_div_pow, BitVec.toNat_ofNat]
  omega

/-! ## Decoder and encoder -/

/-- spec/opcode_table.json numbers all 32 bits of a word, so none is cut off. -/
theorem decodeTableWord_of_decode {w : Word} {i : Instr} (h : decode w = .command i) :
    decodeTableWord 32 w.toNat = some i := by
  rw [decodeTableWord, Nat.mod_eq_of_lt w.isLt, BitVec.ofNat_toNat, BitVec.setWidth_eq, h]

/-- Settles O4: a word is a command only as that command's own word, and is one exactly when its fields are legal. -/
theorem encodeDecodeAgree : Obligations.EncodeDecodeAgree :=
  ⟨fun i _ => ⟨decode_encode i, decodeTableWord_of_decode (decode_encode i)⟩,
    fun w i h => ⟨i.wf_eq_true, ((decode_eq_command_iff w i).mp h).symm⟩,
    exists_decode_eq_command_iff⟩

/-- R92: the masks of the opcode map cover the whole word. -/
theorem decode_eq_command_iff_masked (w : Word) (i : Instr) :
    decode w = .command i ↔ w &&& 0xFFFFFFFF = encode i := by
  have hmask : w &&& 0xFFFFFFFF = w := BitVec.and_allOnes
  rw [hmask, decode_eq_command_iff]

/-- Settles O2: each row by the word of its command, the reserved rows by the value of the word. -/
theorem decodeMatchesOpcodeMap : Obligations.DecodeMatchesOpcodeMap := by
  intro w
  have hrow := decode_eq_command_iff_masked w
  refine ⟨hrow .nop, hrow .mac, hrow .clamp, hrow .axpyRef, hrow .axpyVec, hrow .compare, ?_⟩
  rw [exists_decode_eq_illegal_iff, cmdwOf_wf_iff, Nat.not_lt]

/-- Settles O3: bits 31:4 first, then the opcode. -/
theorem decoderIsTotal : Obligations.DecoderIsTotal := by
  intro w rsv op
  have hopcode : ∀ i, rsv = 0 → op = i.opcode → decode w = .command i := fun i hrsv hop =>
    (decode_of_reservedZero hrsv).trans ((commandOf_eq_command_iff op i).mpr hop)
  refine ⟨?_, fun _ hrsv => ⟨_, decode_of_reservedBits hrsv⟩, hopcode .mac, hopcode .clamp, hopcode .axpyRef,
    hopcode .axpyVec, hopcode .compare,
    fun hrsv hop => ⟨_, (decode_of_reservedZero hrsv).trans (commandOf_of_reserved hop)⟩⟩
  rintro rfl
  exact decode_encode .nop

end Sys2Proof
end

section
/-! PROOFS. The pseudo-instructions of the host script (R103). -/

namespace Sys2Proof.Machine

/-- R103: WAIT on an idle unit reads STATUS once and ends. -/
theorem step_wait_idle {s : State} {rest : List Event} (ha : s.agenda = .wait :: rest) (hr : s.run = none) :
    step s = .next ({ s with agenda := rest }.readReg .status) := by
  rw [step_event s .wait rest ha]
  simp [State.handle, State.hostWait, hr]

/-- R103: WAIT on a busy unit reads STATUS and comes again after the unit's turn. -/
theorem step_wait_busy {s : State} {rest : List Event} {r : Run} (ha : s.agenda = .wait :: rest) (hr : s.run = some r)
    (hh : r.hung = false) :
    step s = .next { { s with agenda := rest }.readReg .status with agenda := .unit :: .wait :: rest } := by
  rw [step_event s .wait rest ha]
  simp [State.handle, State.hostWait, hr, hh]

/-- R28, R48: STATUS as a host reads it shows BUSY in bit 0, also while EQUAL is open. -/
theorem State.readStatus_busy (s : State) : s.readStatus.getLsbD 0 = s.status.busy :=
  (Status.word_fields _).1

/-- Settles O60: the transactions are the register writes by definition; WAIT by the unit's state. -/
theorem scriptPseudoInstructions : Obligations.ScriptPseudoInstructions := by
  refine ⟨fun _ => rfl, fun _ => rfl, rfl, fun _ _ _ _ => rfl,
    fun s rest hinv ha => ⟨fun hr => ?_, fun r hr hh => ?_⟩⟩
  · have hread := { s with agenda := rest }.readReg_idle .status hr (hinv.idle_of_run hr)
    rw [s.readValue_withAgenda, State.readValue_status (State.runs_idle hr _)] at hread
    exact (step_wait_idle ha hr).trans (congrArg Host.Outcome.next hread)
  · have hsame := ({ s with agenda := rest }.readReg_sameRegisters .status).of_withTurn (turn := s.turn)
    exact ⟨_, step_wait_busy ha hr hh, rfl, { hsame with }, rfl,
      (State.readStatus_busy _).trans (hinv.busy_of_run hr)⟩

end Sys2Proof.Machine
end

section
/-! PROOFS. The arithmetic of one element: the saturation, the exact accumulator and the distance of two samples, in
integers and in bit patterns (R11, R110 to R116). -/

namespace Sys2Proof.Machine

/-! ## Bit patterns as numbers (R11) -/

/-- R11: a sample is in [-2^15, 2^15 - 1]. -/
theorem s16_range (p : Sample) : -32768 ≤ s16 p ∧ s16 p ≤ 32767 :=
  ⟨BitVec.le_toInt p, Int.le_of_lt_add_one BitVec.toInt_lt⟩

/-- R11: a sample's signed value has the sample's pattern. -/
@[simp] theorem u16_s16 (p : Sample) : u16 (s16 p) = p :=
  BitVec.ofInt_toInt

/-- R114: a lane of at least 32 bits holds every value of the signed 32-bit range exactly. -/
theorem toInt_ofInt_of_int32 {width : Nat} (hwidth : 32 ≤ width) {v : Int} (hlow : -2 ^ 31 ≤ v) (hhigh : v < 2 ^ 31) :
    (BitVec.ofInt width v).toInt = v := by
  have hpow : (2 : Int) ^ 31 ≤ 2 ^ (width - 1) := pow_le_pow_right₀ (by decide) (by omega)
  exact BitVec.toInt_ofInt_eq_self (by omega) (by omega) (by omega)

/-! ## The saturation (R110, R111) -/

theorem clamp_of_gt {v : Int} (h : v > 32767) : clamp v = 32767 :=
  if_pos h

theorem clamp_of_lt {v : Int} (h : v < -32768) : clamp v = -32768 :=
  (if_neg (by omega)).trans (if_pos h)

theorem clamp_of_range {v : Int} (hlow : -32768 ≤ v) (hhigh : v ≤ 32767) : clamp v = v :=
  (if_neg (by omega)).trans (if_neg (by omega))

/-- R110: the nearest value of the Sample range. -/
theorem clamp_eq_max_min (v : Int) : clamp v = max (-32768) (min v 32767) := by
  rcases lt_or_ge v (-32768) with hlow | hlow
  · rw [clamp_of_lt hlow]; omega
  · rcases lt_or_ge 32767 v with hhigh | hhigh
    · rw [clamp_of_gt hhigh]; omega
    · rw [clamp_of_range hlow hhigh]; omega

theorem clamp_range (v : Int) : -32768 ≤ clamp v ∧ clamp v ≤ 32767 := by
  rw [clamp_eq_max_min]; omega

theorem clamp_mono {v w : Int} (h : v ≤ w) : clamp v ≤ clamp w := by
  rw [clamp_eq_max_min, clamp_eq_max_min]
  exact max_le_max_left _ (min_le_min_right _ h)

/-- R115: the saturation lowers exactly the values above the Sample range. -/
theorem clamp_lt_iff (v : Int) : clamp v < v ↔ v > 32767 := by
  rw [clamp_eq_max_min]; omega

/-- R115: the saturation raises exactly the values below the Sample range. -/
theorem lt_clamp_iff (v : Int) : v < clamp v ↔ v < -32768 := by
  rw [clamp_eq_max_min]; omega

/-- Settles O11: the range, the identity and the order from `clamp_eq_max_min`; the four values by evaluation. -/
theorem clampProperties : Obligations.ClampProperties :=
  fun v _ => ⟨clamp_range v, clamp_of_range, clamp_mono, rfl, rfl, rfl, rfl⟩

/-! ## The clip logic (R112) -/

/-- R112: bits 31:15 of a pattern, read as signed, are its signed value divided by 2^15. -/
theorem toInt_signBits (p : Word) : (p.extractLsb' 15 17).toInt = s32 p / 32768 := by
  have hp := p.isLt
  rw [s32, BitVec.toInt_eq_toNat_cond, BitVec.toInt_eq_toNat_cond, BitVec.extractLsb'_toNat, Nat.shiftRight_eq_div_pow]
  omega

/-- R112: bits 31:15 are all equal exactly for a value of the Sample range. -/
theorem signBits_equal_iff (p : Word) :
    (p.extractLsb' 15 17 = 0#17 ∨ p.extractLsb' 15 17 = BitVec.allOnes 17) ↔ -32768 ≤ s32 p ∧ s32 p ≤ 32767 := by
  have hzero : (0#17).toInt = 0 := rfl
  have hones : (BitVec.allOnes 17).toInt = -1 := rfl
  rw [← BitVec.toInt_inj, ← BitVec.toInt_inj, toInt_signBits, hzero, hones]
  omega

/-- R11: bits 15:0 of a pattern are the 16-bit pattern of its signed value. -/
theorem extractLsb'_low_eq_u16 (p : Word) : p.extractLsb' 0 16 = u16 (s32 p) := by
  have hp := p.isLt
  apply BitVec.eq_of_toNat_eq
  rw [u16, s32, BitVec.toNat_ofInt, BitVec.toInt_eq_toNat_cond, BitVec.extractLsb'_toNat, Nat.shiftRight_zero]
  omega

/-- R11: bit 31 is the sign. -/
theorem getLsbD_sign_eq_false_iff (p : Word) : p.getLsbD 31 = false ↔ 0 ≤ s32 p := by
  have hsign : p.getLsbD 31 = decide (s32 p < 0) := (p.msb_eq_getLsbD_last.symm).trans BitVec.msb_eq_toInt
  rw [hsign, decide_eq_false_iff_not, not_lt]

/-- R112: the clip logic computes the saturation. -/
theorem clip_eq_u16_clamp (p : Word) : clip p = u16 (clamp (s32 p)) := by
  unfold clip
  split
  · next hequal =>
    obtain ⟨hlow, hhigh⟩ := (signBits_equal_iff p).mp hequal
    rw [clamp_of_range hlow hhigh, extractLsb'_low_eq_u16]
  · next hunequal =>
    rw [signBits_equal_iff] at hunequal
    split
    · next hsign =>
      rw [getLsbD_sign_eq_false_iff] at hsign
      rw [clamp_of_gt (by omega)]
      rfl
    · next hsign =>
      rw [getLsbD_sign_eq_false_iff] at hsign
      rw [clamp_of_lt (by omega)]
      rfl

/-- Settles O12: the bit test is the model's clip, and both by `clip_eq_u16_clamp`. -/
theorem clipIsClamp : Obligations.ClipIsClamp :=
  fun p => ⟨clip_eq_u16_clamp p, clip_eq_u16_clamp p⟩

/-! ## The product (R115) -/

/-- The product of two factors that are positive and at most m and n. -/
theorem mul_pos_and_le {x y m n : Int} (hx : 0 < x) (hxm : x ≤ m) (hy : 0 < y) (hyn : y ≤ n) :
    0 < x * y ∧ x * y ≤ m * n :=
  ⟨Int.mul_pos hx hy, Int.mul_le_mul hxm hyn hy.le (hx.le.trans hxm)⟩

theorem s16_mul_of_pos_of_pos {p q : Sample} (hp : 0 < s16 p) (hq : 0 < s16 q) :
    0 < s16 p * s16 q ∧ s16 p * s16 q ≤ 32767 * 32767 :=
  mul_pos_and_le hp (s16_range p).2 hq (s16_range q).2

theorem s16_mul_of_neg_of_neg {p q : Sample} (hp : s16 p < 0) (hq : s16 q < 0) :
    0 < s16 p * s16 q ∧ s16 p * s16 q ≤ (-32768) * (-32768) := by
  have hpq := mul_pos_and_le (neg_pos.mpr hp) (neg_le.mp (s16_range p).1) (neg_pos.mpr hq) (neg_le.mp (s16_range q).1)
  rwa [neg_mul_neg] at hpq

theorem s16_mul_of_pos_of_neg {p q : Sample} (hp : 0 < s16 p) (hq : s16 q < 0) :
    s16 p * s16 q < 0 ∧ 32767 * (-32768) ≤ s16 p * s16 q := by
  have hpq := mul_pos_and_le hp (s16_range p).2 (neg_pos.mpr hq) (neg_le.mp (s16_range q).1)
  rw [mul_neg] at hpq
  omega

theorem s16_mul_of_neg_of_pos {p q : Sample} (hp : s16 p < 0) (hq : 0 < s16 q) :
    s16 p * s16 q < 0 ∧ (-32768) * 32767 ≤ s16 p * s16 q := by
  rw [mul_comm (s16 p)]
  exact s16_mul_of_pos_of_neg hq hp

theorem s16_mul_of_zero {p q : Sample} (h : s16 p = 0 ∨ s16 q = 0) : s16 p * s16 q = 0 :=
  Int.mul_eq_zero.mpr h

/-- R115: the product's extremes, whatever the signs. -/
theorem s16_mul_range (p q : Sample) : -1073709056 ≤ s16 p * s16 q ∧ s16 p * s16 q ≤ 1073741824 := by
  rcases lt_trichotomy (s16 p) 0 with hp | hp | hp
  · rcases lt_trichotomy (s16 q) 0 with hq | hq | hq
    · have := s16_mul_of_neg_of_neg hp hq; omega
    · have := s16_mul_of_zero (p := p) (.inr hq); omega
    · have := s16_mul_of_neg_of_pos hp hq; omega
  · have := s16_mul_of_zero (q := q) (.inl hp); omega
  · rcases lt_trichotomy (s16 q) 0 with hq | hq | hq
    · have := s16_mul_of_pos_of_neg hp hq; omega
    · have := s16_mul_of_zero (p := p) (.inr hq); omega
    · have := s16_mul_of_pos_of_pos hp hq; omega

/-- R114: a factor of a product of 2^30 or more is -2^15. -/
theorem s16_eq_min_of_large_mul {p q : Sample} (h : 2 ^ 30 ≤ s16 p * s16 q) : s16 p = -32768 := by
  by_contra hne
  have hp := s16_range p
  have hq := s16_range q
  have hp' : |s16 p| ≤ 32767 := abs_le.mpr (by omega)
  have hq' : |s16 q| ≤ 32768 := abs_le.mpr (by omega)
  have hmul : s16 p * s16 q ≤ 32767 * 32768 := calc
    s16 p * s16 q ≤ |s16 p * s16 q| := le_abs_self _
    _ = |s16 p| * |s16 q| := abs_mul _ _
    _ ≤ 32767 * 32768 := Int.mul_le_mul hp' hq' (abs_nonneg _) (by decide)
  omega

/-! ## The accumulator (R113, R114) -/

/-- R114: the sum's extremes. -/
theorem mac_range (a alpha b : Sample) : -1073741824 ≤ mac a alpha b ∧ mac a alpha b ≤ 1073774591 := by
  have ha := s16_range a
  have hmul := s16_mul_range alpha b
  unfold mac
  omega

/-- R113: the 32-bit arithmetic is that of the integers mod 2^32. -/
theorem macPattern_eq (a alpha b : Sample) : macPattern a alpha b = u32 (mac a alpha b) := by
  simp only [macPattern, mac, sext32_eq, u32, BitVec.ofInt_add, BitVec.ofInt_mul]

/-- R114: every lane of at least 32 bits holds the exact sum. -/
theorem toInt_ofInt_mac {width : Nat} (hwidth : 32 ≤ width) (a alpha b : Sample) :
    (BitVec.ofInt width (mac a alpha b)).toInt = mac a alpha b := by
  have hmac := mac_range a alpha b
  exact toInt_ofInt_of_int32 hwidth (by omega) (by omega)

/-- R114: the 32-bit accumulator never overflows. -/
theorem s32_macPattern (a alpha b : Sample) : s32 (macPattern a alpha b) = mac a alpha b := by
  rw [macPattern_eq]
  exact toInt_ofInt_mac le_rfl a alpha b

/-- Settles O13: the ranges from those of the factors, the lanes by `toInt_ofInt_mac`, and operands that attain each
bound. -/
theorem macBounds : Obligations.MacBounds :=
  ⟨fun a alpha b => ⟨s16_mul_range alpha b, mac_range a alpha b,
      ⟨macPattern_eq a alpha b, s32_macPattern a alpha b⟩,
      fun h => ⟨s16_eq_min_of_large_mul h, s16_eq_min_of_large_mul (mul_comm (s16 alpha) _ ▸ h)⟩,
      fun _ hwidth => toInt_ofInt_mac hwidth a alpha b⟩,
    ⟨0x7FFF, 0x8000, 0x8000, by decide⟩, ⟨0x8000, 0x7FFF, 0x8000, by decide⟩, ⟨0x7FFF, 0x8000, by decide⟩,
    ⟨0x8000, 0x8000, by decide⟩⟩

/-- R115: with a factor 0 the accumulator is a itself. -/
theorem mac_of_zero {a alpha b : Sample} (h : s16 alpha = 0 ∨ s16 b = 0) : mac a alpha b = s16 a := by
  rw [mac, s16_mul_of_zero h, add_zero]

/-- R115: with a factor 0 the result is a itself. -/
theorem axpySample_of_zero {a alpha b : Sample} (h : s16 alpha = 0 ∨ s16 b = 0) : axpySample a alpha b = a := by
  obtain ⟨hlow, hhigh⟩ := s16_range a
  rw [axpySample, mac_of_zero h, clamp_of_range hlow hhigh, u16_s16]

/-- Settles O14: the product by the signs of its factors, the saturation by `clamp_lt_iff` and `lt_clamp_iff`. -/
theorem productSigns : Obligations.ProductSigns :=
  fun _ _ _ => ⟨fun h => ⟨s16_mul_of_zero h, mac_of_zero h, axpySample_of_zero h⟩, s16_mul_of_pos_of_pos,
    s16_mul_of_neg_of_neg, s16_mul_of_pos_of_neg, s16_mul_of_neg_of_pos, clamp_lt_iff _, lt_clamp_iff _⟩

/-! ## The distance of two samples (R116) -/

/-- Settles O15: the range and the zero by `absdiff_bound`, the two extremes by evaluation. -/
theorem absdiffRange : Obligations.AbsdiffRange :=
  ⟨fun r t => ⟨Int.natCast_natAbs _, absdiff_bound r t⟩, by decide, by decide⟩

end Sys2Proof.Machine
end

section
/-! PROOFS. The commands that use no memory: NOP, and the own step and the whole of MAC and CLAMP (R120 to R122). -/

namespace Sys2Proof.Machine

/-! ## The whole command in one own step (R43, R200) -/

/-- R200: an idle unit accepts every command that uses no memory. -/
theorem exec_of_idle {op : Instr} {s : State} (hnop : op ≠ .nop) (hop : op.isMemory = false)
    (hidle : s.status.busy = false) :
    exec op { s with turn := .host } = .next ({ s with turn := .host }.accept (capture op s)) := by
  have hplaced := (capture op s).inOrdinaryMemory_of_empty s.target (.inl hop)
  rw [exec_host op hnop _ rfl]
  rcases { s with turn := .host }.issue_cases op with ⟨hb, -⟩ | ⟨-, code, addr, he, -⟩ | ⟨-, -, -, hi⟩ | ⟨-, -, ho, -⟩
  · exact absurd (hb.symm.trans hidle) (by decide)
  · simp [Snapshot.issueError, capture, hop] at he
  · exact hi
  · exact absurd (ho.symm.trans hplaced) (by decide)

/-- R43: such a command with one own step is that step after its acceptance. -/
theorem wholeCommand_one {op : Instr} {s t : State} (hnop : op ≠ .nop) (hop : op.isMemory = false)
    (hidle : s.status.busy = false) (hstep : exec op (afterIssue op s) = .next t) :
    wholeCommand op 1 s = .next t := by
  simp only [wholeCommand, exec_of_idle hnop hop hidle]
  exact execTimes_succ_of_next hstep 0

/-! ## NOP (R120) -/

theorem exec_nop (s : State) : exec .nop s = .next s :=
  rfl

/-- Settles O16: a CMD write of NOP's word is `exec .nop` after the event is taken. -/
theorem nopChangesNothing : Obligations.NopChangesNothing :=
  ⟨rfl, exec_nop, fun s rest h => (step_of_cmdWrite s rest _ .nop h rfl).trans (exec_nop _)⟩

/-! ## MAC (R121) -/

/-- R121: the end of a MAC during which no host wrote ACC. -/
theorem State.finishMac_of_unraced (s : State) {r : Run} (h : r.accRaced = false) :
    s.finishMac r = { s with
      acc := u32 (mac r.snap.opa r.snap.alpha r.snap.opb)
      res := u16 (clamp (mac r.snap.opa r.snap.alpha r.snap.opb))
      status := s.status.completed
      run := none } := by
  rw [State.finishMac, if_neg (by simp [h])]
  rfl

/-- Settles O17: the own step by `State.finishMac_of_unraced`, and the whole command is that step after acceptance. -/
theorem macCommand : Obligations.MacCommand := by
  refine ⟨rfl, fun s r hrunning hraced => ?_, fun s hidle => ?_⟩
  · obtain ⟨-, hturn, hrun, hop, hlive⟩ := hrunning
    exact (exec_mac_unit s r hturn hrun hop hlive).trans (congrArg _ (s.finishMac_of_unraced hraced))
  · refine wholeCommand_one (by decide) rfl hidle ?_
    rw [exec_mac_unit (afterIssue .mac s) (Run.start (capture .mac s)) rfl rfl rfl rfl,
      State.finishMac_of_unraced _ rfl]
    rfl

/-! ## CLAMP (R122, D29) -/

/-- R122: the end of a CLAMP during which no host wrote ACC. -/
theorem State.finishClamp_of_unraced (s : State) {r : Run} (h : r.accRaced = false) :
    s.finishClamp r = { s with
      res := u16 (clamp (s32 r.snap.acc))
      status := s.status.completed
      run := none } := by
  rw [State.finishClamp, if_neg (by simp [h])]
  rfl

/-- D29: the end of a CLAMP during which a host wrote ACC. -/
theorem State.finishClamp_of_raced (s : State) {r : Run} (h : r.accRaced = true) :
    s.finishClamp r = { s.afterChoice with
      acc := BitVec.ofNat 32 s.choice
      res := u16 (clamp (s32 r.snap.acc))
      status := s.status.completed
      run := none } := by
  rw [State.finishClamp, if_pos h]
  rfl

/-- Settles O18: the own step by `State.finishClamp_of_unraced`, and the whole command is that step after acceptance. -/
theorem clampCommand : Obligations.ClampCommand := by
  refine ⟨rfl, fun s r hrunning hraced => ?_, fun s hidle => ?_⟩
  · obtain ⟨-, hturn, hrun, hop, hlive⟩ := hrunning
    exact (exec_clamp_unit s r hturn hrun hop hlive).trans (congrArg _ (s.finishClamp_of_unraced hraced))
  · refine wholeCommand_one (by decide) rfl hidle ?_
    rw [exec_clamp_unit (afterIssue .clamp s) (Run.start (capture .clamp s)) rfl rfl rfl rfl,
      State.finishClamp_of_unraced _ rfl]
    rfl

/-- Settles O27: the own step by `State.finishClamp_of_raced`, and the draw v leaves ACC at v. -/
theorem accWrittenDuringClamp : Obligations.AccWrittenDuringClamp := by
  intro s r hrunning hraced
  obtain ⟨-, hturn, hrun, hop, hlive⟩ := hrunning
  refine ⟨⟨_, exec_clamp_unit s r hturn hrun hop hlive, ?_⟩, fun v => ?_⟩
  · rw [s.finishClamp_of_raced hraced]
    rfl
  · refine ⟨Feed.giving v.toNat, _,
      exec_clamp_unit { s with choices := Feed.giving v.toNat } r hturn hrun hop hlive, ?_⟩
    rw [State.finishClamp_of_raced _ hraced, State.choice_giving, BitVec.ofNat_toNat, BitVec.setWidth_eq]

end Sys2Proof.Machine
end

section
/-! PROOFS. The completion of a memory command, and what a whole memory command that ends without error leaves, on any
platform and whatever the draws (R130 to R134, R150, R155, R158, R180, R185). -/

namespace Sys2Proof.Machine

/-! ## The completion (R201) -/

/-- R201: with every strip closed and no element left, the own step of a memory command is its completion. -/
theorem exec_of_no_element_left {op : Instr} {s : State} {r : Run} (hop : IsMemoryCommand op) (hturn : s.turn = .unit)
    (hrun : s.run = some r) (hsnap : r.snap.op = op) (hlive : r.hung = false) (hl : r.lanes = [])
    (hp : r.snap.n.toNat ≤ s.processed.toNat) : exec op s = .next (s.finishMemory op r) := by
  rw [exec_memory_unit hop s r hturn hrun hsnap hlive]
  rcases s.stripStep_cases r (takesCapin op s.target) (s.finishMemory op) with
    ⟨hne, -⟩ | ⟨-, hlt, -⟩ | ⟨-, hlt, -⟩ | ⟨-, -, hstep⟩
  · exact absurd hl hne
  · omega
  · omega
  · exact hstep

/-- R44: with PROCESSED = n no strip is open, so the own step is the completion. -/
theorem Running.exec_of_all_processed {op : Instr} {s : State} {r : Run} (hop : IsMemoryCommand op)
    (h : Running op s r) (hp : s.processed = r.snap.n) : exec op s = .next (s.finishMemory op r) := by
  have hinside := (h.inv.running r h.run).inside (by rw [h.op]; exact hop.isMemory)
  rw [hp] at hinside
  exact exec_of_no_element_left hop h.turn h.run h.op h.live (List.eq_nil_of_length_eq_zero (by omega))
    (Nat.le_of_eq (by rw [hp]))

theorem IsAxpy.isMemoryCommand {op : Instr} (h : IsAxpy op) : IsMemoryCommand op :=
  h.imp_right .inl

theorem State.finishMemory_of_isAxpy (s : State) {op : Instr} (h : IsAxpy op) (r : Run) :
    s.finishMemory op r = s.complete := by
  rcases h with rfl | rfl <;> rfl

/-- Settles O41: the own step is the completion, by `Running.exec_of_all_processed`. -/
theorem lastStepCompletes : Obligations.LastStepCompletes := by
  refine ⟨fun op s r hop hrunning hp => ?_, fun s r hrunning hp => ?_⟩
  · rw [hrunning.exec_of_all_processed hop.isMemoryCommand hp, s.finishMemory_of_isAxpy hop]
    rfl
  · exact hrunning.exec_of_all_processed (.inr (.inr rfl)) hp

/-! ## No elements (R134, R155, R185) -/

/-- R200: an idle unit accepts a command that passes its checks. -/
theorem exec_of_passed_checks {op : Instr} {s : State} (hop : op ≠ .nop) (hidle : s.status.busy = false)
    (hchecks : (capture op s).issueError = none) (hplaced : (capture op s).inOrdinaryMemory s.target = true) :
    exec op { s with turn := .host } = .next ({ s with turn := .host }.accept (capture op s)) := by
  rw [exec_host op hop _ rfl]
  rcases { s with turn := .host }.issue_cases op with ⟨hb, -⟩ | ⟨-, code, addr, he, -⟩ | ⟨-, -, -, hi⟩ | ⟨-, -, ho, -⟩
  · exact absurd (hb.symm.trans hidle) (by decide)
  · exact absurd (hchecks.symm.trans he) nofun
  · exact hi
  · exact absurd (ho.symm.trans hplaced) (by decide)

theorem IsMemoryCommand.ne_nop {op : Instr} (h : IsMemoryCommand op) : op ≠ .nop := by
  rcases h with rfl | rfl | rfl <;> decide

/-- R134, R155, R185: without elements no check is made, and the one own step after the acceptance is the completion. -/
theorem wholeCommand_of_empty {op : Instr} {s : State} (hop : IsMemoryCommand op) (hidle : s.status.busy = false)
    (hn : s.n = 0) :
    wholeCommand op 1 s = .next ((afterIssue op s).finishMemory op (Run.start (capture op s))) := by
  have hissue : exec op { s with turn := .host } = .next ({ s with turn := .host }.accept (capture op s)) :=
    exec_of_passed_checks hop.ne_nop hidle (by simp [Snapshot.issueError, capture, hn])
      (Snapshot.inOrdinaryMemory_of_empty _ s.target (.inr hn))
  have hlast : exec op (afterIssue op s) = .next ((afterIssue op s).finishMemory op (Run.start (capture op s))) :=
    exec_of_no_element_left hop rfl rfl rfl rfl rfl (by simp [capture, hn])
  simp only [wholeCommand, hissue]
  exact execTimes_succ_of_next hlast 0

theorem afterIssue_processed_eq {op : Instr} (hop : IsMemoryCommand op) (s : State) :
    (afterIssue op s).processed = 0 :=
  BitVec.eq_of_toNat_eq (afterIssue_processed hop s)

/-- R200: the issue of a memory command, field by field. -/
theorem afterIssue_eq {op : Instr} (hop : IsMemoryCommand op) (s : State) :
    afterIssue op s = { s with
      status := s.status.accepted
      processed := 0
      loans := capture op s :: s.loans
      turn := .unit
      run := some (Run.start (capture op s)) } := by
  simp [afterIssue, State.accept, capture, hop.isMemory]

/-- Settles O42: the one own step is the completion right after acceptance, with COMPARE's report over no element. -/
theorem emptyInput : Obligations.EmptyInput := by
  refine ⟨fun op s hop hidle hn => ?_, fun s hidle hn => ?_⟩
  · rw [wholeCommand_of_empty hop.isMemoryCommand hidle hn, State.finishMemory_of_isAxpy _ hop,
      afterIssue_eq hop.isMemoryCommand]
    rfl
  · exact wholeCommand_of_empty (.inr (.inr rfl)) hidle hn

/-! ## A whole memory command on any platform -/

/-- R44, R201: all that a memory command changes before it ends: the memory, PROCESSED, its strip, and what it has taken
of the draws, the responses and the CAPIN answers. -/
def WorkOnly (s t : State) : Prop :=
  ∃ mem processed capin responses choices drawn run, t = { s with
    mem := mem, processed := processed, capin := capin, responses := responses, choices := choices, drawn := drawn
    run := run }

theorem WorkOnly.trans {s t u : State} (h : WorkOnly s t) (h' : WorkOnly t u) : WorkOnly s u := by
  obtain ⟨_, _, _, _, _, _, _, rfl⟩ := h
  obtain ⟨_, _, _, _, _, _, _, rfl⟩ := h'
  exact ⟨_, _, _, _, _, _, _, rfl⟩

/-- R201, R202: an own step of a memory command goes on with the command, ends it with an error, or completes it. -/
theorem OwnStep.of_memory {s t : State} {r : Run} (hop : IsMemoryCommand r.snap.op) (h : OwnStep s r t) :
    (∃ r', t.run = some r' ∧ r'.snap = r.snap ∧ WorkOnly s t) ∨
    (t.run = none ∧ t.turn = s.turn ∧ t.status.err = true) ∨
    (s.processed = r.snap.n ∧ t = s.finishMemory r.snap.op r) := by
  cases h with
  | mac hmac => exact absurd hop (by simp [IsMemoryCommand, hmac])
  | clamp hclamp => exact absurd hop (by simp [IsMemoryCommand, hclamp])
  | chunk => exact .inl ⟨_, rfl, rfl, _, _, _, _, _, _, _, rfl⟩
  | moved q x hq => exact .inl ⟨_, rfl, hq.snap, _, _, _, _, _, _, _, rfl⟩
  | closed q x hq => exact .inl ⟨_, rfl, hq.snap, _, _, _, _, _, _, _, rfl⟩
  | failed q x hq =>
    obtain ⟨m, c, d, -, ⟨-, -, heq⟩ | ⟨-, -, heq⟩⟩ :=
      s.afterChoice.afterResponse.busError_eq q (x.address q.snap s.processed.toNat) <;> rw [heq]
    · exact .inr (.inl ⟨rfl, rfl, rfl⟩)
    · exact .inr (.inl ⟨rfl, rfl, rfl⟩)
  | silent q x hq => exact .inl ⟨_, rfl, hq.snap, _, _, _, _, _, _, _, rfl⟩
  | finish _ _ hp => exact .inr (.inr ⟨hp, rfl⟩)

/-- R132, R158, R180: an own step after which the memory command still runs keeps it under way. -/
theorem OwnStep.memoryProgress {m : Memory} {s t : State} {r r' : Run} (hinv : s.Inv) (hr : s.run = some r)
    (hprogress : MemoryProgress m s r) (h : OwnStep s r t) (hr' : t.run = some r') (hsnap : r'.snap = r.snap) :
    MemoryProgress m t r' := by
  obtain ⟨haxpy, hcompare⟩ := hprogress
  have hruns : t.run ≠ none := by simp [hr']
  constructor <;> intro hop <;> rw [hsnap] at hop
  · rcases h.axpyProgress hinv hr hop (haxpy hop) with ⟨r'', hr'', -, hp⟩ | ⟨⟨hn, -⟩, -⟩ | ⟨hn, -⟩
    · exact Option.some.inj (hr''.symm.trans hr') ▸ hp
    · exact absurd hn hruns
    · exact absurd hn hruns
  · obtain ⟨-, ⟨r'', hr'', -, hp⟩ | ⟨⟨hn, -⟩, -⟩ | ⟨hn, -⟩⟩ := h.compareProgress hinv hr hop (hcompare hop)
    · exact Option.some.inj (hr''.symm.trans hr') ▸ hp
    · exact absurd hn hruns
    · exact absurd hn hruns

/-- In s the unit runs the command `op` that was issued in s₀, with the strip state r. -/
structure InProgress (op : Instr) (s₀ s : State) (r : Run) : Prop where
  inv : s.Inv
  run : s.run = some r
  snap : r.snap = capture op s₀
  frame : WorkOnly (afterIssue op s₀) s
  progress : MemoryProgress s₀.mem s r

theorem InProgress.turn {op : Instr} {s₀ s : State} {r : Run} (h : InProgress op s₀ s r) : s.turn = .unit := by
  obtain ⟨_, _, _, _, _, _, _, rfl⟩ := h.frame
  rfl

/-- R200: a command that is ready is under way once it is accepted. -/
theorem InProgress.start {op : Instr} {s : State} (hop : IsMemoryCommand op) (h : Ready op s) :
    InProgress op s (afterIssue op s) (Run.start (capture op s)) where
  inv := by
    refine h.inv.next rfl h.inv.memory (Status.legal_accepted _) rfl (fun r hr => ?_) (.inl ⟨rfl, rfl⟩)
    cases hr
    exact Run.Legal.start hop.ne_nop h.checks (fun _ => afterIssue_processed_eq hop s) fun hm => by
      simp [afterIssue, hm]
  run := rfl
  snap := rfl
  frame := ⟨_, _, _, _, _, _, _, rfl⟩
  progress := MemoryProgress.start hop s

/-- Every outcome of an own step: the command is under way still, ends with an error, or completes. -/
theorem InProgress.exec_next {op : Instr} {s₀ s t : State} {r : Run} (hop : IsMemoryCommand op)
    (h : InProgress op s₀ s r) (hnext : exec op s = .next t) :
    (∃ r', InProgress op s₀ t r') ∨
    (t.run = none ∧ t.turn = .unit ∧ t.status.err = true) ∨
    (s.processed = s₀.n ∧ t = s.finishMemory op r) := by
  have hsnapop : r.snap.op = op := by rw [h.snap]; rfl
  cases hhung : r.hung with
  | true =>
    cases (exec_hung s r h.turn h.run hhung op).symm.trans hnext
    exact .inl ⟨r, h⟩
  | false =>
    have hown : OwnStep s r t := .of_exec h.inv h.turn h.run hhung (hsnapop.symm ▸ hnext)
    rcases hown.of_memory (hsnapop.symm ▸ hop) with ⟨r', hr', hsnap, hframe⟩ | ⟨hn, hturn, herr⟩ | ⟨hp, ht⟩
    · exact .inl ⟨r', hown.inv h.inv h.run, hr', hsnap.trans h.snap, h.frame.trans hframe,
        hown.memoryProgress h.inv h.run h.progress hr' hsnap⟩
    · exact .inr (.inl ⟨hn, hturn.trans h.turn, herr⟩)
    · rw [h.snap] at hp
      rw [hsnapop] at ht
      exact .inr (.inr ⟨hp, ht⟩)

/-- R225: once the command has ended, further own steps do nothing. -/
theorem execTimes_idle {op : Instr} {s : State} (hturn : s.turn = .unit) (hr : s.run = none) (k : Nat) :
    execTimes op k s = .next s := by
  induction k with
  | zero => rfl
  | succ k ih => rw [execTimes_succ_of_next (exec_idle op s hturn hr), ih]

/-- Own steps that answer are a first one that answers, and the others. -/
theorem exec_of_execTimes_succ {op : Instr} {s t : State} {k : Nat} (h : execTimes op (k + 1) s = .next t) :
    ∃ u, exec op s = .next u ∧ execTimes op k u = .next t := by
  unfold execTimes at h
  split at h
  · next u hu => exact ⟨u, hu, h⟩
  · cases h
  · cases h

theorem State.finishMemory_run_turn (s : State) (op : Instr) (r : Run) :
    (s.finishMemory op r).run = none ∧ (s.finishMemory op r).turn = s.turn := by
  unfold State.finishMemory
  split <;> exact ⟨rfl, rfl⟩

/-- A command under way that ends without error ends by its completion, with all its elements processed. -/
theorem InProgress.completion_of_succeeded {op : Instr} {s₀ s t : State} {r : Run} {k : Nat} (hop : IsMemoryCommand op)
    (h : InProgress op s₀ s r) (ht : execTimes op k s = .next t) (hsucc : Succeeded t) :
    ∃ u r', InProgress op s₀ u r' ∧ u.processed = s₀.n ∧ t = u.finishMemory op r' := by
  induction k generalizing s r with
  | zero =>
    cases ht
    exact absurd (h.run.symm.trans hsucc.1) nofun
  | succ k ih =>
    obtain ⟨u, hu, hrest⟩ := exec_of_execTimes_succ ht
    rcases h.exec_next hop hu with ⟨r', h'⟩ | ⟨hn, hturn, herr⟩ | ⟨hp, rfl⟩
    · exact ih h' hrest
    · cases (execTimes_idle hturn hn k).symm.trans hrest
      exact absurd (herr.symm.trans hsucc.2) (by decide)
    · obtain ⟨hn, hturn⟩ := s.finishMemory_run_turn op r
      cases (execTimes_idle (hturn.trans h.turn) hn k).symm.trans hrest
      exact ⟨s, r, h, hp, rfl⟩

/-- R201: a whole memory command that ends without error ends by its completion, with all its elements processed. -/
theorem wholeCommand_completion_of_succeeded {op : Instr} {s t : State} {k : Nat} (hop : IsMemoryCommand op)
    (h : Ready op s) (ht : wholeCommand op k s = .next t) (hsucc : Succeeded t) :
    ∃ u r, InProgress op s u r ∧ u.processed = s.n ∧ t = u.finishMemory op r :=
  (InProgress.start hop h).completion_of_succeeded hop (wholeCommand_eq hop h k ▸ ht) hsucc

/-! ## The result of an AXPY command (R132, R133, R158) -/

/-- Settles O50: y from `AxpyProgress.completed` at PROCESSED = n, the other bytes from `AxpyProgress.outside`, and the
rest of the state from `InProgress.frame`. -/
theorem axpyResult : Obligations.AxpyResult := by
  intro op k s t hop hready hwhole hsucc
  obtain ⟨u, r, hu, hp, rfl⟩ := wholeCommand_completion_of_succeeded hop.isMemoryCommand hready hwhole hsucc
  have hprogress := hu.progress.1 (by rw [hu.snap]; exact hop)
  have hcompleted := hprogress.completed
  have houtside := hprogress.outside
  rw [hu.snap] at hcompleted houtside
  rw [u.finishMemory_of_isAxpy hop]
  refine ⟨fun i hi => hcompleted i (hp ▸ hi), fun a ha => houtside a fun ⟨hlow, hhigh⟩ => ?_, ?_⟩
  · simp only [Snapshot.bytes, capture] at hlow hhigh
    omega
  · obtain ⟨_, _, _, _, _, _, _, rfl⟩ := hu.frame
    cases hp
    rw [afterIssue_eq hop.isMemoryCommand]
    rfl

/-- R28, R201: STATUS after a completion rests on OVR and EQUAL alone. -/
theorem Status.success_congr {f g : Status} (hovr : f.ovr = g.ovr) (hequal : f.equal = g.equal) :
    f.success = g.success := by
  simp only [Status.success, hovr, hequal]

/-- Settles O55: by `axpyResult` each run leaves what its operands and inputs determine. -/
theorem axpyRefIsDeterministic : Obligations.AxpyRefIsDeterministic := by
  intro k k' s s' t t' hready hready' hsame hinputs hwhole hwhole' hsucc hsucc'
  obtain ⟨hy, -, ht⟩ := axpyResult .axpyRef k s t (.inl rfl) hready hwhole hsucc
  obtain ⟨hy', -, ht'⟩ := axpyResult .axpyRef k' s' t' (.inl rfl) hready' hwhole' hsucc'
  have hp : t.processed = s.n := congrArg State.processed ht
  have hp' : t'.processed = s'.n := congrArg State.processed ht'
  have hstatus : t.status = s.status.success := congrArg State.status ht
  have hstatus' : t'.status = s'.status.success := congrArg State.status ht'
  rw [hsame.n, hsame.alpha, hsame.aAddr, hsame.bAddr, hsame.yAddr] at hy'
  refine ⟨fun i hi => ?_, by rw [hp, hp', hsame.n], fun hovr hequal => ?_⟩
  · obtain ⟨ha, hb⟩ := hinputs i hi
    rw [hy i hi, hy' i hi, ha, hb]
  · rw [hstatus, hstatus', Status.success_congr hovr hequal]

end Sys2Proof.Machine
end

section
/-! PROOFS. The vector kernel: the width of its strips, its fallback without the vector capability, and its equality with
the reference kernel (R151, R156, R159, R161). -/

namespace Sys2Proof.Machine

/-! ## The chunk of a strip (R151, R161) -/

/-- R151: with the vector capability, no strip open and elements left, the own step takes CAPIN's answer. -/
theorem Running.exec_of_capin {op : Instr} {s : State} {r : Run} (hop : op = .axpyVec ∨ op = .compare)
    (h : Running op s r) (hv : s.target.hasVector = true) (hl : r.lanes = [])
    (hp : s.processed.toNat < r.snap.n.toNat) : exec op s = s.takeChunk r := by
  have hcapin : takesCapin op s.target = true := by rcases hop with rfl | rfl <;> exact hv
  rw [exec_memory_unit (.inr hop) s r h.turn h.run h.op h.live]
  rcases s.stripStep_cases r (takesCapin op s.target) (s.finishMemory op) with
    ⟨hne, -⟩ | ⟨-, -, -, hstep⟩ | ⟨-, -, hscalar, -⟩ | ⟨-, hle, -⟩
  · exact absurd hl hne
  · exact hstep
  · exact absurd (hcapin.symm.trans hscalar) (by decide)
  · omega

/-- R161: CAPIN's next answer lies in [1, VLMAX] where CAPIN keeps to its contract; the free answers always do. -/
theorem State.chunkAnswer_of_capinLegal {s : State} (ht : s.target.wf = true) (h : s.CapinLegal) :
    1 ≤ s.chunkAnswer ∧ s.chunkAnswer ≤ s.target.vlmax := by
  have hfree := Nat.mod_lt (Config.chunkAnswer s.drawn) (Target.vlmax_pos ht)
  exact Feed.now_iterate_of_capinLegal h 0 _ (by omega)

/-- A listed answer is the one CAPIN gives next. -/
theorem State.chunkAnswer_of_listed {s : State} {v : Nat} {rest : List Nat} (h : s.capin.listed = v :: rest) :
    s.chunkAnswer = v := by
  simp [State.chunkAnswer, Feed.now, h]

/-- Settles O40: the own step is `takeChunk`, whose two outcomes the answer's range separates. -/
theorem chunkWidth : Obligations.ChunkWidth := by
  intro op s r hop hrunning hv hl hp w c
  rw [hrunning.exec_of_capin hop hv hl hp]
  refine ⟨fun hlow hhigh => ?_, fun hout => ?_, fun hlegal => ?_, fun v rest hlisted => ?_⟩
  · refine ⟨by omega, by omega, by omega, ?_⟩
    rcases s.takeChunk_cases r with ⟨-, -, hnext⟩ | ⟨hnot, -⟩
    · exact hnext
    · exact absurd ⟨hlow, hhigh⟩ hnot
  · rcases s.takeChunk_cases r with ⟨hlow, hhigh, -⟩ | ⟨-, hrefused⟩
    · omega
    · exact hrefused
  · exact State.chunkAnswer_of_capinLegal hrunning.inv.target hlegal
  · exact State.chunkAnswer_of_listed hlisted

/-! ## AXPY_VEC and AXPY_REF leave the same memory (R158, R159) -/

/-- The memory stays in its canonical form over a whole memory command that ends without error. -/
theorem wholeCommand_memory_wf {op : Instr} {s t : State} {k : Nat} (hop : IsMemoryCommand op) (h : Ready op s)
    (ht : wholeCommand op k s = .next t) (hsucc : Succeeded t) : Memory.wf t.mem := by
  obtain ⟨u, r, hu, -, rfl⟩ := wholeCommand_completion_of_succeeded hop h ht hsucc
  have hmem : (u.finishMemory op r).mem = u.mem := by
    unfold State.finishMemory
    split <;> rfl
  exact hmem ▸ hu.inv.memory

/-- R13, R62: a byte of a buffer of n samples is the low or the high byte of one of its elements. -/
theorem exists_elem_of_byte {base : Word} {n a : Nat} (hlow : base.toNat ≤ a) (hhigh : a < base.toNat + 2 * n) :
    ∃ i, i < n ∧ (a = elem base i ∨ a = elem base i + 1) :=
  ⟨(a - base.toNat) / 2, by omega, by simp only [elem]; omega⟩

/-- Canonical memories with the same samples in a buffer and the same bytes outside it are equal. -/
theorem Memory.ext_of_buffer {m m' : Memory} (h : Memory.wf m) (h' : Memory.wf m') (base : Word) (n : Nat)
    (hin : ∀ i, i < n → Memory.readSample m (elem base i) = Memory.readSample m' (elem base i))
    (hout : ∀ a, a < base.toNat ∨ base.toNat + 2 * n ≤ a → Memory.readByte m a = Memory.readByte m' a) : m = m' := by
  refine Memory.ext_of_reads m m' h h' fun a => ?_
  by_cases ha : base.toNat ≤ a ∧ a < base.toNat + 2 * n
  · obtain ⟨i, hi, hbyte⟩ := exists_elem_of_byte ha.1 ha.2
    obtain ⟨hlow, hhigh⟩ := Memory.readByte_of_readSample m m' _ (hin i hi)
    rcases hbyte with rfl | rfl
    · exact hlow
    · exact hhigh
  · exact hout a (by omega)

/-- Settles O56: by `axpyResult` both runs leave the same samples in y and the same bytes elsewhere, hence the same
canonical memory. -/
theorem vectorEqualsReference : Obligations.VectorEqualsReference := by
  intro k k' s s' t t' hready hready' hsame hmem hwhole hwhole' hsucc hsucc'
  have hwf : Memory.wf t.mem := wholeCommand_memory_wf (.inl rfl) hready hwhole hsucc
  have hwf' : Memory.wf t'.mem := wholeCommand_memory_wf (.inr (.inl rfl)) hready' hwhole' hsucc'
  obtain ⟨hy, hout, ht⟩ := axpyResult .axpyRef k s t (.inl rfl) hready hwhole hsucc
  obtain ⟨hy', hout', ht'⟩ := axpyResult .axpyVec k' s' t' (.inr rfl) hready' hwhole' hsucc'
  have hp : t.processed = s.n := congrArg State.processed ht
  have hp' : t'.processed = s'.n := congrArg State.processed ht'
  have hstatus : t.status = s.status.success := congrArg State.status ht
  have hstatus' : t'.status = s'.status.success := congrArg State.status ht'
  rw [hsame.n, hsame.alpha, hsame.aAddr, hsame.bAddr, hsame.yAddr, hmem] at hy'
  rw [hsame.n, hsame.yAddr, hmem] at hout'
  refine ⟨?_, hp'.trans hsame.n, hp, fun hovr hequal => ?_⟩
  · exact Memory.ext_of_buffer hwf' hwf s.yAddr s.n.toNat (fun i hi => (hy' i hi).trans (hy i hi).symm)
      fun a ha => (hout' a ha).trans (hout a ha).symm
  · rw [hstatus, hstatus', Status.success_congr hovr hequal]

/-! ## The same strip under another AXPY command (R156) -/

/-- The same strip state, its command under another opcode. -/
def Run.withOp (r : Run) (op : Instr) : Run :=
  { r with snap := { r.snap with op := op } }

@[simp] theorem Run.withOp_lanes (r : Run) (op : Instr) : (r.withOp op).lanes = r.lanes := rfl
@[simp] theorem Run.withOp_op (r : Run) (op : Instr) : (r.withOp op).snap.op = op := rfl
@[simp] theorem Run.withOp_n (r : Run) (op : Instr) : (r.withOp op).snap.n = r.snap.n := rfl
@[simp] theorem State.withOp_processed (s : State) (op : Instr) : (s.withOp op).processed = s.processed := rfl

theorem Run.openStrip_withOp (r : Run) (op : Instr) (c : Nat) :
    (r.withOp op).openStrip c = (r.openStrip c).withOp op := rfl

theorem State.complete_withOp (s : State) (op : Instr) : (s.withOp op).complete = s.complete.withOp op := rfl

theorem State.withOp_eq (s : State) (op : Instr) : s.withOp op = { s with run := s.run.map (·.withOp op) } := rfl

/-- What a meaning answers, its next state under another opcode. -/
def Result.withOp (op : Instr) : Result → Result
  | .next t => .next (t.withOp op)
  | .fault f => .fault f
  | .refused f => .refused f

theorem IsAxpy.ne_compare {op : Instr} (h : IsAxpy op) : op ≠ .compare := by
  rcases h with rfl | rfl <;> decide

section
variable {op : Instr} {r : Run}

theorem State.settleStrip_withOp (s : State) (hr : IsAxpy r.snap.op) (hop : IsAxpy op) :
    s.settleStrip (r.withOp op) = (s.settleStrip r).withOp op := by
  have hw : op.writesY = r.snap.op.writesY := hop.writesY.trans hr.writesY.symm
  simp only [State.settleStrip, Run.withOp, hw]
  split
  · simp [State.closeStrip, State.withOp, hr.ne_compare, hop.ne_compare]
  · rfl

theorem State.perform_withOp (s : State) (x : Xact) (hr : IsAxpy r.snap.op) (hop : IsAxpy op) :
    s.perform (r.withOp op) x = (s.perform r x).withOp op := by
  cases x with
  | readA j => exact s.settleStrip_withOp (r := { r with lanes := _ }) hr hop
  | readB j => exact s.settleStrip_withOp (r := { r with lanes := _ }) hr hop
  | store j =>
    simp only [State.perform, Run.withOp]
    split
    · exact State.settleStrip_withOp (r := { r with lanes := _ }) _ hr hop
    · rfl

/-- What an abandoned strip leaves in y rests on the buffers and ALPHA, not on the opcode. -/
theorem spillFrom_withOp (k : Snapshot) (op : Instr) (p : Nat) (ls : List Lane) (j : Nat) (s : State) :
    spillFrom { k with op := op } p j ls s = spillFrom k p j ls s := by
  induction ls generalizing j s with
  | nil => rfl
  | cons l ls ih => simp only [spillFrom, ih]

theorem State.busError_withOp (s : State) (addr : Nat) (hr : IsAxpy r.snap.op) (hop : IsAxpy op) :
    s.busError (r.withOp op) addr = (s.busError r addr).withOp op := by
  have hspill : s.spill (r.withOp op) = s.spill r := by
    simp only [State.spill, Run.withOp, hr.writesY, hop.writesY, spillFrom_withOp]
  have hbus : s.busError r addr = (s.spill r).raiseError .bus (some (BitVec.ofNat 32 addr)) :=
    if_neg hr.ne_compare
  have hbus' : s.busError (r.withOp op) addr = (s.spill (r.withOp op)).raiseError .bus (some (BitVec.ofNat 32 addr)) :=
    if_neg hop.ne_compare
  rw [hbus, hbus', hspill]
  rfl

theorem State.respond_withOp (s : State) (x : Xact) (hr : IsAxpy r.snap.op) (hop : IsAxpy op) :
    s.respond (r.withOp op) x = (s.respond r x).withOp op := by
  unfold State.respond
  cases s.response with
  | ok => exact s.afterResponse.perform_withOp x hr hop
  | error => exact s.afterResponse.busError_withOp _ hr hop
  | silent => rfl

theorem State.transact_withOp (s : State) (hr : IsAxpy r.snap.op) (hop : IsAxpy op) :
    s.transact (r.withOp op) = Result.withOp op (s.transact r) := by
  have hpick : pick (enabledFrom (r.withOp op).snap.op.writesY 0 (r.withOp op).lanes) s.choice =
      pick (enabledFrom r.snap.op.writesY 0 r.lanes) s.choice := by
    rw [Run.withOp_op, Run.withOp_lanes, hr.writesY, hop.writesY]
  unfold State.transact
  rw [hpick]
  cases pick (enabledFrom r.snap.op.writesY 0 r.lanes) s.choice with
  | none => exact congrArg Host.Outcome.next (s.afterChoice.settleStrip_withOp hr hop)
  | some x =>
    have haddress : x.address (r.withOp op).snap s.processed.toNat = x.address r.snap s.processed.toNat := by
      cases x <;> rfl
    simp only [haddress]
    split_ifs
    · rfl
    · rfl
    · rfl
    · exact congrArg Host.Outcome.next (s.afterChoice.respond_withOp x hr hop)

/-- R131, R156: without CAPIN the step of an AXPY command does not rest on which of the two it is. -/
theorem State.stripStep_withOp (s : State) (hr : IsAxpy r.snap.op) (hop : IsAxpy op) :
    ((s.withOp op).stripStep (r.withOp op) false fun _ => (s.withOp op).complete) =
      Result.withOp op (s.stripStep r false fun _ => s.complete) := by
  have htransact : ∀ q : Run, IsAxpy q.snap.op →
      (s.withOp op).transact (q.withOp op) = Result.withOp op (s.transact q) := fun q hq => by
    rw [State.withOp_eq, State.transact_withRun, s.transact_withOp hq hop]
  simp only [State.stripStep, Run.withOp_lanes, Run.withOp_n, State.withOp_processed, Run.openStrip_withOp,
    State.complete_withOp]
  cases r.lanes with
  | cons l ls => exact htransact r hr
  | nil =>
    by_cases hp : s.processed.toNat < r.snap.n.toNat
    · simpa [hp] using htransact (r.openStrip 1) hr
    · simp [hp, Result.withOp]

end

/-- R156: an own step without CAPIN takes no CAPIN answer. -/
theorem State.stripStep_scalar_capin {s t : State} {r : Run} (h : (s.stripStep r false fun _ => s.complete) = .next t) :
    t.capin = s.capin := by
  rcases s.stripStep_cases r false fun _ => s.complete with ⟨-, hs⟩ | ⟨-, -, hv, -⟩ | ⟨-, -, -, hs⟩ | ⟨-, -, hs⟩
  · exact s.transact_capin t r (hs.symm.trans h)
  · exact absurd hv (by decide)
  · exact s.transact_capin t _ (hs.symm.trans h)
  · cases hs.symm.trans h
    rfl

/-- Settles O57: both own steps are the step of a strip without CAPIN, and `State.stripStep_withOp` carries one into the
other. -/
theorem fallbackIsReference : Obligations.FallbackIsReference := by
  intro s r hrunning hv
  obtain ⟨-, hturn, hrun, hsnap, hlive⟩ := hrunning
  have hvec : exec .axpyVec s = s.stripStep r false fun _ => s.complete := by
    rw [exec_axpyVec_unit s r hturn hrun hsnap hlive, hv]
  have href : exec .axpyRef (s.withOp .axpyRef) = Result.withOp .axpyRef (exec .axpyVec s) := by
    rw [exec_axpyRef_unit (s.withOp .axpyRef) (r.withOp .axpyRef) hturn (by simp [State.withOp_eq, hrun]) rfl hlive,
      hvec]
    exact s.stripStep_withOp (.inr hsnap) (.inl rfl)
  refine ⟨fun t ht => ⟨?_, State.stripStep_scalar_capin (hvec.symm.trans ht)⟩, fun f hf => ?_, fun f hf => ?_⟩
  · rw [href, ht]
    rfl
  · rw [href, hf]
    rfl
  · rw [href, hf]
    rfl

end Sys2Proof.Machine
end

section
/-! PROOFS. The report of a COMPARE that completes without error, and the acceptance run of the two kernels (R181, R182,
R184, R186, R188, R189). -/

namespace Sys2Proof.Machine

/-! ## The report of COMPARE (R181, R182, R184) -/

/-- R182: the largest distance is an upper bound of the distances. -/
theorem absdiff_le_maxDistance (m : Memory) (k : Snapshot) {p i : Nat} (hi : i < p) :
    absdiff (Memory.readSample m (elem k.aAddr i)) (Memory.readSample m (elem k.bAddr i)) ≤ maxDistance m k p := by
  induction p with
  | zero => omega
  | succ p ih =>
    rw [maxDistance]
    obtain hlt | rfl := Nat.lt_succ_iff_lt_or_eq.mp hi
    · exact (ih hlt).trans (Nat.le_max_left _ _)
    · exact Nat.le_max_right _ _

/-- R182, R185: the largest distance is the distance of some element, or 0. -/
theorem maxDistance_attained (m : Memory) (k : Snapshot) (p : Nat) :
    maxDistance m k p = 0 ∨ ∃ i, i < p ∧
      absdiff (Memory.readSample m (elem k.aAddr i)) (Memory.readSample m (elem k.bAddr i)) = maxDistance m k p := by
  induction p with
  | zero => exact .inl rfl
  | succ p ih =>
    rw [maxDistance]
    rcases Nat.le_total (maxDistance m k p)
      (absdiff (Memory.readSample m (elem k.aAddr p)) (Memory.readSample m (elem k.bAddr p))) with hle | hle
    · rw [Nat.max_eq_right hle]
      exact .inr ⟨p, Nat.lt_succ_self p, rfl⟩
    · rw [Nat.max_eq_left hle]
      exact ih.imp_right fun ⟨i, hi, heq⟩ => ⟨i, Nat.lt_succ_of_lt hi, heq⟩

/-- R180, R201: a COMPARE that ends without error leaves the report over all n elements, and all it changes is STATUS,
MAXDIFF, PROCESSED, its loan, and what it has taken of the draws, the responses and the CAPIN answers. -/
theorem wholeCommand_compare_of_succeeded {k : Nat} {s t : State} (h : Ready .compare s)
    (ht : wholeCommand .compare k s = .next t) (hsucc : Succeeded t) :
    (t.status.equal = true ↔ allEqual s.mem (capture .compare s) s.n.toNat) ∧
    t.maxdiff.toNat = maxDistance s.mem (capture .compare s) s.n.toNat ∧
    t = { s with
      status := { s.status.success with equal := t.status.equal }
      maxdiff := t.maxdiff
      processed := s.n
      loans := capture .compare s :: s.loans
      turn := .unit
      capin := t.capin, responses := t.responses, choices := t.choices, drawn := t.drawn
      run := none } := by
  have hop : IsMemoryCommand .compare := .inr (.inr rfl)
  obtain ⟨u, r, hu, hp, rfl⟩ := wholeCommand_completion_of_succeeded hop h ht hsucc
  obtain ⟨hmem, -, -, heq, hmd⟩ := hu.progress.2 (by rw [hu.snap]; rfl)
  rw [hu.snap, hp] at heq hmd
  have hbound := (hu.inv.running r hu.run).md
  refine ⟨heq, ?_, ?_⟩
  · calc (BitVec.ofNat 32 r.md).toNat = r.md := by rw [BitVec.toNat_ofNat, Nat.mod_eq_of_lt (by omega)]
      _ = maxDistance s.mem (capture .compare s) s.n.toNat := hmd
  · obtain ⟨_, _, _, _, _, _, _, rfl⟩ := hu.frame
    cases hp
    cases hmem
    rw [afterIssue_eq hop]
    rfl

/-- Settles O53: the report by `wholeCommand_compare_of_succeeded`, and what the largest distance says of the elements. -/
theorem compareResult : Obligations.CompareResult := by
  intro k s t hready hwhole hsucc
  obtain ⟨hequal, hmd, ht⟩ := wholeCommand_compare_of_succeeded hready hwhole hsucc
  obtain ⟨hbound, hzero⟩ := maxDistance_bound s.mem (capture .compare s) s.n.toNat
  have hmaxdiff : t.maxdiff = 0 ↔ maxDistance s.mem (capture .compare s) s.n.toNat = 0 := by
    rw [← hmd]
    exact BitVec.toNat_inj.symm
  refine ⟨hequal, fun i hi => ?_, ?_, by omega, by rw [hequal, hmaxdiff, hzero], ht⟩ <;> rw [hmd]
  · exact absdiff_le_maxDistance s.mem (capture .compare s) hi
  · exact (maxDistance_attained s.mem (capture .compare s) s.n.toNat).imp_left hmaxdiff.mpr

/-! ## One command after another (R200, R201) -/

/-- R43, R201: the invariant holds where a memory command has ended without error. -/
theorem wholeCommand_inv {op : Instr} {k : Nat} {s t : State} (hop : IsMemoryCommand op) (h : Ready op s)
    (ht : wholeCommand op k s = .next t) (hsucc : Succeeded t) : t.Inv := by
  obtain ⟨u, r, hu, hp, rfl⟩ := wholeCommand_completion_of_succeeded hop h ht hsucc
  have hsnapop : r.snap.op = op := by rw [hu.snap]; rfl
  have hn : u.processed = r.snap.n := by rw [hu.snap]; exact hp
  have hinside := (hu.inv.running r hu.run).inside (by rw [hsnapop]; exact hop.isMemory)
  rw [hn] at hinside
  have hfinish := OwnStep.finish (hsnapop.symm ▸ hop) (List.eq_nil_of_length_eq_zero (by omega)) hn
  exact hsnapop ▸ hfinish.inv hu.inv hu.run

/-- R65, R200: an idle unit was ready for a command that ended without error: a failed check is an error, and a buffer in
memory that is not ordinary is refused. -/
theorem Ready.of_succeeded {op : Instr} {k : Nat} {s t : State} (hop : op ≠ .nop) (hinv : s.Inv) (hrun : s.run = none)
    (ht : wholeCommand op k s = .next t) (hsucc : Succeeded t) : Ready op s := by
  have hidle := hinv.idle_of_run hrun
  simp only [wholeCommand, exec_host op hop { s with turn := .host } rfl] at ht
  rcases { s with turn := .host }.issue_cases op with
    ⟨hb, -⟩ | ⟨-, code, addr, -, hi⟩ | ⟨-, hchecks, hplaced, -⟩ | ⟨-, -, -, hi⟩
  · exact absurd (hb.symm.trans hidle) (by decide)
  · rw [hi] at ht
    cases (execTimes_idle rfl rfl k).symm.trans ht
    exact absurd hsucc.2 (by simp)
  · exact ⟨hinv, hidle, hchecks, hplaced⟩
  · rw [hi] at ht
    cases ht

/-- R42: an AXPY command leaves its operand registers as they were. -/
theorem wholeCommand_axpy_sameOperands {op : Instr} {k : Nat} {s t : State} (hop : IsAxpy op) (h : Ready op s)
    (ht : wholeCommand op k s = .next t) (hsucc : Succeeded t) : SameOperands s t := by
  obtain ⟨-, -, heq⟩ := axpyResult op k s t hop h ht hsucc
  rw [heq]
  constructor <;> rfl

/-! ## The acceptance run (R189) -/

/-- R62, R189: buffers of n samples at x and at y share no byte. -/
def BuffersApart (n : Nat) (x y : Word) : Prop :=
  x.toNat + 2 * n ≤ y.toNat ∨ y.toNat + 2 * n ≤ x.toNat

theorem BuffersApart.symm {n : Nat} {x y : Word} (h : BuffersApart n x y) : BuffersApart n y x :=
  Or.symm h

/-- R62: where only a buffer y of n samples was written, the samples of a buffer apart from it are kept. -/
theorem BuffersApart.readSample_kept {m m' : Memory} {y base : Word} {n i : Nat} (h : BuffersApart n y base)
    (hout : ∀ a, a < y.toNat ∨ y.toNat + 2 * n ≤ a → Memory.readByte m' a = Memory.readByte m a) (hi : i < n) :
    Memory.readSample m' (elem base i) = Memory.readSample m (elem base i) := by
  have houtside : ∀ d, d ≤ 1 → Memory.readByte m' (elem base i + d) = Memory.readByte m (elem base i + d) :=
    fun d hd => hout _ (by simp only [BuffersApart, elem] at *; omega)
  exact Memory.readSample_congr _ _ _ (houtside 0 (by omega)) (houtside 1 (by omega))

/-- R132, R158: AXPY_REF into R, apart from the inputs, and then AXPY_VEC with the same inputs into T, apart from R, leave
the same samples in R and in T: the second reads the inputs of the first and leaves R alone. -/
theorem axpyRef_then_axpyVec_agree {T : Word} {k₁ k₂ : Nat} {s t₁ t₂ : State} (hready₁ : Ready .axpyRef s)
    (ha : BuffersApart s.n.toNat s.yAddr s.aAddr) (hb : BuffersApart s.n.toNat s.yAddr s.bAddr)
    (hT : BuffersApart s.n.toNat s.yAddr T)
    (hwhole₁ : wholeCommand .axpyRef k₁ s = .next t₁) (hsucc₁ : Succeeded t₁)
    (hready₂ : Ready .axpyVec { t₁ with yAddr := T })
    (hwhole₂ : wholeCommand .axpyVec k₂ { t₁ with yAddr := T } = .next t₂) (hsucc₂ : Succeeded t₂) {i : Nat}
    (hi : i < s.n.toNat) :
    Memory.readSample t₂.mem (elem s.yAddr i) = Memory.readSample t₂.mem (elem T i) := by
  obtain ⟨hn, halpha, haAddr, hbAddr, -⟩ := wholeCommand_axpy_sameOperands (.inl rfl) hready₁ hwhole₁ hsucc₁
  obtain ⟨hy₁, hout₁, -⟩ := axpyResult .axpyRef k₁ s t₁ (.inl rfl) hready₁ hwhole₁ hsucc₁
  obtain ⟨hy₂, hout₂, -⟩ := axpyResult .axpyVec k₂ _ t₂ (.inr rfl) hready₂ hwhole₂ hsucc₂
  simp only [hn, halpha, haAddr, hbAddr] at hy₂ hout₂
  calc Memory.readSample t₂.mem (elem s.yAddr i)
      = Memory.readSample t₁.mem (elem s.yAddr i) := hT.symm.readSample_kept hout₂ hi
    _ = u16 (clamp (s16 (Memory.readSample s.mem (elem s.aAddr i)) +
          s16 s.alpha * s16 (Memory.readSample s.mem (elem s.bAddr i)))) := hy₁ i hi
    _ = u16 (clamp (s16 (Memory.readSample t₁.mem (elem s.aAddr i)) +
          s16 s.alpha * s16 (Memory.readSample t₁.mem (elem s.bAddr i)))) := by
        rw [ha.readSample_kept hout₁ hi, hb.readSample_kept hout₁ hi]
    _ = Memory.readSample t₂.mem (elem T i) := (hy₂ i hi).symm

/-- Settles O58: R and T hold the same samples by `axpyRef_then_axpyVec_agree`, and `compareResult` reports it. That the
second and the third command pass their checks follows from their success (`Ready.of_succeeded`). -/
theorem acceptanceRun : Obligations.AcceptanceRun := by
  intro T k₁ k₂ k₃ s t₁ t₂ t₃ L apart hready₁ ha hb hT _ hwhole₁ hsucc₁ hwhole₂ hsucc₂ hwhole₃ hsucc₃
  have hinv₁ : t₁.Inv := wholeCommand_inv (.inl rfl) hready₁ hwhole₁ hsucc₁
  have hready₂ : Ready .axpyVec { t₁ with yAddr := T } :=
    .of_succeeded (by decide) (hinv₁.writeReg .yAddr T) hsucc₁.1 hwhole₂ hsucc₂
  have hinv₂ : t₂.Inv := wholeCommand_inv (.inr (.inl rfl)) hready₂ hwhole₂ hsucc₂
  have hready₃ : Ready .compare { t₂ with aAddr := s.yAddr, bAddr := T } :=
    .of_succeeded (by decide) ((hinv₂.writeReg .aAddr s.yAddr).writeReg .bAddr T) hsucc₂.1 hwhole₃ hsucc₃
  have hn : t₂.n = s.n :=
    (wholeCommand_axpy_sameOperands (.inr rfl) hready₂ hwhole₂ hsucc₂).n.trans
      (wholeCommand_axpy_sameOperands (.inl rfl) hready₁ hwhole₁ hsucc₁).n
  obtain ⟨hequal, -, -, -, hzero, -⟩ := compareResult k₃ _ t₃ hready₃ hwhole₃ hsucc₃
  have hreport : t₃.status.equal = true := hequal.mpr fun i hi =>
    axpyRef_then_axpyVec_agree hready₁ ha hb hT hwhole₁ hsucc₁ hready₂ hwhole₂ hsucc₂ (hn ▸ hi)
  exact ⟨hreport, hzero.mp hreport⟩

end Sys2Proof.Machine
end

section
/-! PROOFS. The checks of an issue, and the issue step (R200, R204 to R206, R208). -/

namespace Sys2Proof.Machine

/-! ## The first check that fails (R208) -/

/-- R200: the checks are made for a memory command over at least one element. -/
theorem Snapshot.issueError_eq_firstError {k : Snapshot} (hop : IsMemoryCommand k.op) (hn : 0 < k.n.toNat) :
    k.issueError = k.firstError := by
  have hn' : ¬k.n = 0#32 := fun e => by simp [e] at hn
  simp [Snapshot.issueError, hop.isMemory, hn']

/-- R200: no check is made for a command without buffers, or without elements. -/
theorem Snapshot.issueError_eq_none_of_empty {k : Snapshot} (h : k.op.isMemory = false ∨ k.n = 0) :
    k.issueError = none := by
  rcases h with h | h <;> simp [Snapshot.issueError, h]

/-- R208: ALIGN comes before the other checks. -/
theorem Snapshot.firstError_eq_align_iff (k : Snapshot) (b : Word) :
    k.firstError = some (.align, b) ↔ k.alignError = some b := by
  cases halign : k.alignError with
  | some a => simp [Snapshot.firstError, halign]
  | none =>
    unfold Snapshot.firstError
    rw [halign]
    cases k.rangeError <;> cases k.overlapError <;> simp

/-- R208: RANGE is the second check. -/
theorem Snapshot.firstError_eq_range_iff {k : Snapshot} (halign : k.alignError = none) (b : Word) :
    k.firstError = some (.range, b) ↔ k.rangeError = some b := by
  unfold Snapshot.firstError
  rw [halign]
  cases k.rangeError <;> cases k.overlapError <;> simp

/-- R208: OVERLAP is the last check. -/
theorem Snapshot.firstError_eq_overlap_iff {k : Snapshot} (halign : k.alignError = none) (hrange : k.rangeError = none)
    (b : Word) : k.firstError = some (.overlap, b) ↔ k.overlapError = some b := by
  unfold Snapshot.firstError
  rw [halign, hrange]
  cases k.overlapError <;> simp

/-- R208: where ALIGN is not the error, its check passes. -/
theorem Snapshot.alignError_eq_none {k : Snapshot} (h : ∀ b, k.firstError ≠ some (.align, b)) :
    k.alignError = none :=
  Option.eq_none_iff_forall_ne_some.mpr fun b hb => h b ((k.firstError_eq_align_iff b).mpr hb)

/-- R208: where ALIGN passes and RANGE is not the error, the RANGE check passes. -/
theorem Snapshot.rangeError_eq_none {k : Snapshot} (halign : k.alignError = none)
    (h : ∀ b, k.firstError ≠ some (.range, b)) : k.rangeError = none :=
  Option.eq_none_iff_forall_ne_some.mpr fun b hb => h b ((Snapshot.firstError_eq_range_iff halign b).mpr hb)

/-! ## The first base that fails (R204, R205) -/

/-- R61, R180: of the memory commands all but COMPARE write y. -/
theorem IsMemoryCommand.writesY_iff {op : Instr} (h : IsMemoryCommand op) : op.writesY = true ↔ op ≠ .compare := by
  rcases h with rfl | rfl | rfl <;> decide

/-- R204: the first base that has a property, in the order A, B and, where the command is not COMPARE, Y. -/
theorem Snapshot.find?_bases_eq_some_iff {k : Snapshot} (hop : IsMemoryCommand k.op) (p : Word → Bool) (base : Word) :
    k.bases.find? p = some base ↔
      (p k.aAddr = true ∧ base = k.aAddr) ∨
      (p k.aAddr = false ∧ p k.bAddr = true ∧ base = k.bAddr) ∨
      (p k.aAddr = false ∧ p k.bAddr = false ∧ k.op ≠ .compare ∧ p k.yAddr = true ∧ base = k.yAddr) := by
  simp only [Snapshot.bases, hop.writesY_iff]
  cases ha : p k.aAddr with
  | true => split <;> simp [ha, eq_comm (a := base)]
  | false =>
    cases hb : p k.bAddr with
    | true => split <;> simp [ha, hb, eq_comm (a := base)]
    | false => split <;> simp_all [List.find?_singleton, eq_comm (a := base)]

/-- Settles O7: ALIGN is reported exactly where its check fails, and that finds the first odd base. -/
theorem alignCheck : Obligations.AlignCheck := by
  intro k base hop hn
  rw [Snapshot.issueError_eq_firstError hop hn, Snapshot.firstError_eq_align_iff]
  exact Snapshot.find?_bases_eq_some_iff hop _ base

/-- Settles O8: the check finds the first buffer that runs past the end, and is reported where ALIGN passes. -/
theorem rangeCheck : Obligations.RangeCheck := by
  intro k base hop hn past failing
  have hcheck : k.rangeError = some base ↔ failing := by
    have hfirst := Snapshot.find?_bases_eq_some_iff hop (fun b => decide (Memory.size < b.toNat + k.bytes)) base
    simp only [decide_eq_true_eq, decide_eq_false_iff_not] at hfirst
    exact hfirst
  refine ⟨hcheck, fun halign => ?_⟩
  rw [Snapshot.issueError_eq_firstError hop hn] at halign ⊢
  rw [Snapshot.firstError_eq_range_iff (Snapshot.alignError_eq_none halign), hcheck]

/-- R206: the byte ranges of length L at y and x share a byte, at different bases. -/
theorem partialOverlap_iff (y x L : Nat) : partialOverlap y x L = true ↔ y < x + L ∧ x < y + L ∧ y ≠ x := by
  simp [partialOverlap, and_assoc]

/-- Settles O9: the check by its definition, reported where ALIGN and RANGE pass. -/
theorem overlapCheck : Obligations.OverlapCheck := by
  intro k e hop hn L part failing
  have hfails : (k.op.writesY && (partialOverlap k.yAddr.toNat k.aAddr.toNat k.bytes
      || partialOverlap k.yAddr.toNat k.bAddr.toNat k.bytes)) = true ↔ failing := by
    rw [Bool.and_eq_true, Bool.or_eq_true, partialOverlap_iff, partialOverlap_iff, hop.writesY_iff]
    exact Iff.rfl
  have hcheck : k.overlapError = some e ↔ failing ∧ e = k.yAddr := by
    simp [Snapshot.overlapError, hfails, eq_comm]
  have hpasses : k.overlapError = none ↔ ¬failing := by
    simp [Snapshot.overlapError, hfails]
  refine ⟨hcheck, fun halign hrange => ?_⟩
  rw [Snapshot.issueError_eq_firstError hop hn] at halign hrange ⊢
  have ha := Snapshot.alignError_eq_none halign
  have hr := Snapshot.rangeError_eq_none ha hrange
  rw [Snapshot.firstError_eq_overlap_iff ha hr, k.firstError_eq_none]
  exact ⟨hcheck, by simp [ha, hr, hpasses]⟩

/-! ## The issue step (R200) -/

/-- R27, R200: a CMD write of a command other than NOP is its issue. -/
theorem step_of_issue {s : State} {rest : List Event} {w : Word} {i : Instr} (h : s.writesNext 0x0C w rest)
    (hd : decode w = .command i) (hi : i ≠ .nop) : step s = { s with agenda := rest, turn := .host }.issue i :=
  (step_of_cmdWrite s rest w i h hd).trans (exec_host i hi _ rfl)

/-- R27, R200: a CMD write of an illegal word is its issue. -/
theorem step_of_issueIllegal {s : State} {rest : List Event} {w : Word} {why : IllegalReason}
    (h : s.writesNext 0x0C w rest) (hd : decode w = .illegal why) :
    step s = .next { s with agenda := rest, turn := .host }.issueIllegal := by
  rw [step_writesNext s 0x0C w rest h]
  simp [registerAt, State.issueWord, hd]

/-- R200: a command issued while another runs is dropped. -/
theorem State.issue_of_busy {s : State} (hb : s.status.busy = true) (i : Instr) : s.issue i = .next s.overrun :=
  if_pos hb

/-- R200: an idle unit ends the issue of a command whose checks fail with the error they report. -/
theorem State.issue_of_error {s : State} {i : Instr} {code : ErrCode} {addr : Word} (hb : s.status.busy = false)
    (he : (capture i s).issueError = some (code, addr)) : s.issue i = .next (s.raiseError code (some addr)) := by
  simp [State.issue, hb, he]

/-- R65, R200: an idle unit accepts a command that passes its checks, with its buffers in ordinary memory. -/
theorem State.issue_of_passed {s : State} {i : Instr} (hb : s.status.busy = false)
    (he : (capture i s).issueError = none) (hplaced : (capture i s).inOrdinaryMemory s.target = true) :
    s.issue i = .next (s.accept (capture i s)) := by
  simp [State.issue, hb, he, hplaced]

/-- R200: an illegal word written while a command runs is dropped. -/
theorem State.issueIllegal_of_busy {s : State} (hb : s.status.busy = true) : s.issueIllegal = s.overrun :=
  if_pos hb

/-- R94, R200: an illegal word written to an idle unit is an error. -/
theorem State.issueIllegal_of_idle {s : State} (hb : s.status.busy = false) :
    s.issueIllegal = s.raiseError .illegal none :=
  if_neg (by simp [hb])

/-- R202: on an idle unit an error changes STATUS and, where it has an address, ERRADDR. -/
theorem State.raiseError_of_idle {s : State} (hb : s.status.busy = false) (hr : s.run = none) (code : ErrCode)
    (addr : Option Word) :
    s.raiseError code addr = { s with
      status := { s.status with done := true, err := true, errcode := code.code }
      erraddr := addr.getD s.erraddr } := by
  simp [State.raiseError, Status.failed, hb, hr]

/-- Settles O6: by the decoded word and STATUS.BUSY; that the controller is idle with BUSY = 0 is the invariant's. -/
theorem issueStep : Obligations.IssueStep := by
  intro s rest w hinv hwrite h
  have hissue : ∀ i, decode w = .command i → i ≠ .nop → step s = h.issue i := fun i hd hi =>
    step_of_issue hwrite hd hi
  have hillegal : ∀ why, decode w = .illegal why → step s = .next h.issueIllegal := fun why hd =>
    step_of_issueIllegal hwrite hd
  have herror : s.status.busy = false → ∀ code addr, h.raiseError code addr = { h with
      status := { s.status with done := true, err := true, errcode := code.code }
      erraddr := addr.getD s.erraddr } := fun hb =>
    State.raiseError_of_idle (s := h) hb (hinv.run_of_idle hb)
  refine ⟨step_of_cmdWrite s rest w .nop hwrite, fun hw hb => ?_, fun why hd hb => ?_, fun i hd hi hb =>
    ⟨Snapshot.issueError_eq_none_of_empty (k := capture i s), fun code addr he => ?_, fun he hplaced => ?_⟩⟩
  · cases hd : decode w with
    | illegal why =>
      rw [hillegal why hd, State.issueIllegal_of_busy (s := h) hb]
      rfl
    | command i =>
      rw [hissue i hd fun hi => hw (hi ▸ hd), State.issue_of_busy (s := h) hb]
      rfl
  · rw [hillegal why hd, State.issueIllegal_of_idle (s := h) hb, herror hb]
    rfl
  · rw [hissue i hd hi, State.issue_of_error (s := h) hb he, herror hb]
    rfl
  · rw [hissue i hd hi, State.issue_of_passed (s := h) hb he hplaced]
    rfl

end Sys2Proof.Machine
end

section
/-! PROOFS. Error BUS: what a transaction with an error response does, and what a command that ends so leaves (R207,
R209). -/

namespace Sys2Proof.Machine

/-! ## The fields after error BUS (R202, R209) -/

theorem State.busError_run (s : State) (q : Run) (addr : Nat) : (s.busError q addr).run = none := by
  obtain ⟨m, c, d, -, ⟨-, -, h⟩ | ⟨-, -, h⟩⟩ := s.busError_eq q addr <;> rw [h] <;> rfl

theorem State.busError_processed (s : State) (q : Run) (addr : Nat) :
    (s.busError q addr).processed = s.processed := by
  obtain ⟨m, c, d, -, ⟨-, -, h⟩ | ⟨-, -, h⟩⟩ := s.busError_eq q addr <;> rw [h] <;> rfl

theorem State.busError_erraddr (s : State) (q : Run) (addr : Nat) :
    (s.busError q addr).erraddr = BitVec.ofNat 32 addr := by
  obtain ⟨m, c, d, -, ⟨-, -, h⟩ | ⟨-, -, h⟩⟩ := s.busError_eq q addr <;> rw [h] <;> rfl

/-- R180, R202: COMPARE's error writes its report to EQUAL. -/
theorem State.busError_status (s : State) (q : Run) (addr : Nat) :
    (s.busError q addr).status =
      { s.status.failed .bus with equal := if q.snap.op = .compare then q.eq else s.status.equal } := by
  obtain ⟨m, c, d, -, ⟨hc, -, h⟩ | ⟨hc, -, h⟩⟩ := s.busError_eq q addr <;> rw [h]
  · rw [if_pos hc]
    rfl
  · rw [if_neg hc]
    rfl

/-- R180: an AXPY command's error leaves MAXDIFF alone. -/
theorem State.busError_maxdiff {s : State} {q : Run} (hop : q.snap.op ≠ .compare) (addr : Nat) :
    (s.busError q addr).maxdiff = s.maxdiff := by
  obtain ⟨m, c, d, -, ⟨hc, -, -⟩ | ⟨-, -, h⟩⟩ := s.busError_eq q addr
  · exact absurd hc hop
  · rw [h]
    rfl

/-- R209: what error BUS leaves in memory is what abandoning the strip does. -/
theorem State.busError_mem (s : State) (q : Run) (addr : Nat) : (s.busError q addr).mem = (s.spill q).mem := by
  obtain ⟨m, c, d, -, ⟨hc, hm, h⟩ | ⟨-, hm, h⟩⟩ := s.busError_eq q addr <;> rw [h] <;> refine hm.trans ?_
  · rw [State.spill, hc]
    rfl
  · rfl

theorem State.busError_sameOperands (s : State) (q : Run) (addr : Nat) : SameOperands s (s.busError q addr) := by
  obtain ⟨m, c, d, -, ⟨-, -, h⟩ | ⟨-, -, h⟩⟩ := s.busError_eq q addr <;> rw [h] <;> constructor <;> rfl

/-! ## A transaction that gets an error response (R207) -/

/-- R62, R209: ERRADDR can hold the address of every transaction of an open strip. -/
theorem State.toNat_address {s : State} {r : Run} (hop : r.snap.op.isMemory = true) (hlegal : r.Legal s) {x : Xact}
    {d : Nat} (hpick : pick (enabledFrom r.snap.op.writesY 0 r.lanes) d = some x) :
    (BitVec.ofNat 32 (x.address r.snap s.processed.toNat)).toNat = x.address r.snap s.processed.toNat := by
  have hholds : _ + 2 ≤ Memory.size := of_decide_eq_true (State.holds_address hop hlegal hpick)
  simp only [Memory.size] at hholds
  rw [BitVec.toNat_ofNat, Nat.mod_eq_of_lt (by omega)]

/-- R207: in the unit's turn, a transaction of the open strip that gets an error response ends the command. -/
theorem Running.exec_of_error {op : Instr} {s : State} {r : Run} {x : Xact} (hop : IsMemoryCommand op)
    (h : Running op s r) (hpick : pick (enabledFrom r.snap.op.writesY 0 r.lanes) s.choice = some x)
    (hcoherent : s.target.coherent = true) (hplaced : s.Placed) (hresponse : s.afterChoice.response = .error) :
    exec op s = .next (s.afterChoice.afterResponse.busError r (x.address r.snap s.processed.toNat)) := by
  obtain ⟨hinv, hturn, hrun, rfl, hlive⟩ := h
  have hlegal := hinv.running r hrun
  obtain ⟨l, hl, hf⟩ := pick_fits _ _ _ _ hpick
  have hopen : r.lanes ≠ [] := fun hn => by simp [hn] at hl
  obtain ⟨hholds, hord⟩ := State.address_in_memory hop.isMemory hlegal.checked (hlegal.inside hop.isMemory)
    (hplaced r hrun) x l hl hf
  rw [exec_memory_unit hop s r hturn hrun rfl hlive, State.stripStep_open _ _ _ _ hopen,
    State.transact_of_pick hpick hholds, if_neg (by simp [hcoherent]), if_neg (by simp [hord]), State.respond,
    hresponse]
  rfl

/-! ## A command that an own step ends with an error -/

/-- R207: an own step of a memory command that ends it with an error is a transaction that got an error response. -/
theorem OwnStep.failed_of_error {s t : State} {r : Run} (hinv : s.Inv) (hr : s.run = some r)
    (hop : IsMemoryCommand r.snap.op) (h : OwnStep s r t) (hn : t.run = none) (herr : t.status.err = true) :
    ∃ q x, NextTransaction s r q x ∧
      t = s.afterChoice.afterResponse.busError q (x.address q.snap s.processed.toNat) := by
  cases h with
  | mac hmac => exact absurd hop (by simp [IsMemoryCommand, hmac])
  | clamp hclamp => exact absurd hop (by simp [IsMemoryCommand, hclamp])
  | chunk => cases hn
  | moved => cases hn
  | closed => cases hn
  | failed q x hq => exact ⟨q, x, hq, rfl⟩
  | silent => cases hn
  | finish =>
    have hno : s.status.err = false := (hinv.status.busy_alone (hinv.busy_of_run hr)).2
    rcases s.finishMemory_eq r with ⟨-, heq⟩ | ⟨-, heq⟩ <;> rw [heq] at herr <;>
      exact absurd (hno.symm.trans herr) (by decide)

/-- R131, R156: the strip of the next transaction has the lanes of the open one, or one fresh lane, and the report of the
strips completed. -/
theorem Run.NextStrip.eq_withLanes {s : State} {r q : Run} (h : r.NextStrip s q) :
    q = { r with lanes := if r.lanes = [] then [Lane.fresh] else r.lanes } := by
  rcases h with ⟨hl, rfl⟩ | ⟨hl, -, rfl⟩
  · rw [if_neg hl]
  · rw [if_pos hl]
    rfl

/-- R61: the next transaction is at an element of its strip, in a buffer that the command uses. -/
theorem NextTransaction.address_eq_elem {s : State} {r q : Run} {x : Xact} (h : NextTransaction s r q x) :
    x.lane < max 1 r.lanes.length ∧ s.processed.toNat + x.lane < r.snap.n.toNat ∧ x.base r.snap ∈ r.snap.bases ∧
      x.address r.snap s.processed.toNat = elem (x.base r.snap) (s.processed.toNat + x.lane) := by
  obtain ⟨l, hl, hf⟩ := h.fits
  have hlane : x.lane < q.lanes.length := (List.getElem?_eq_some_iff.mp hl).1
  have hinside := h.legal.inside (h.snap ▸ h.memory.isMemory)
  have hbase := x.base_mem_bases q.snap l hf
  rw [h.snap] at hinside hbase
  have hlen : q.lanes.length = max 1 r.lanes.length := by
    rw [h.strip.eq_withLanes]
    cases r.lanes <;> simp
  exact ⟨hlen ▸ hlane, by omega, hbase, x.address_eq_elem r.snap _⟩

/-- Settles O43: the failed transaction by `OwnStep.failed_of_error`, the registers by the fields of `State.busError`,
what memory and the report hold by `OwnStep.axpyProgress` and `OwnStep.compareProgress`. -/
theorem stateAfterBusError : Obligations.StateAfterBusError := by
  refine ⟨fun op s r hop hrunning hopen hcoherent hplaced hresponse => ?_, ?_⟩
  · obtain ⟨x, hpick⟩ := pick_of_unfinished _ _ s.choice ((hrunning.inv.running r hrunning.run).unfinished hopen)
    refine ⟨_, hrunning.exec_of_error hop hpick hcoherent hplaced hresponse, State.busError_run _ _ _, ?_⟩
    rw [State.busError_status]
    rfl
  · intro m op s t r hop ⟨hinv, hturn, hrun, hsnap, hlive⟩ hexec hn herr
    subst hsnap
    have hown : OwnStep s r t := .of_exec hinv hturn hrun hlive hexec
    obtain ⟨q, x, hx, ht⟩ := hown.failed_of_error hinv hrun hop hn herr
    obtain ⟨hlane, hi, hbase, haddress⟩ := hx.address_eq_elem
    have hq := hx.strip.eq_withLanes
    have herraddr : t.erraddr.toNat = x.address r.snap s.processed.toNat := by
      rw [ht, State.busError_erraddr, State.toNat_address (hx.snap ▸ hop.isMemory) hx.legal hx.picked, hx.snap]
    refine ⟨?_, ?_, ?_, ⟨x, ?_, herraddr⟩,
      ⟨_, hbase, _, Nat.le_add_right _ _, by omega, hi, herraddr.trans haddress⟩,
      fun haxpy => ⟨?_, fun hprogress => ?_⟩, fun hcompare => ⟨?_, fun hprogress => ?_⟩⟩
    · rw [ht, State.busError_status, hq]
      rfl
    · rw [ht, State.busError_processed]
      rfl
    · exact ht ▸ { State.busError_sameOperands s.afterChoice.afterResponse q _ with }
    · have hpicked := hx.picked
      rw [hq] at hpicked
      exact hpicked
    · have hne : q.snap.op ≠ .compare := by
        rw [hx.snap]
        rcases haxpy with h | h <;> simp [h]
      rw [ht, State.busError_maxdiff hne]
      rfl
    · rcases hown.axpyProgress hinv hrun haxpy hprogress with ⟨r', hr', -⟩ | ⟨⟨-, hno⟩, -⟩ | ⟨-, -, -, -, h⟩
      · exact absurd (hn.symm.trans hr') nofun
      · exact absurd (hno.symm.trans herr) (by decide)
      · exact h
    · rw [ht, State.busError_mem, State.spill, hx.snap, hcompare]
      rfl
    · obtain ⟨-, ⟨r', hr', -⟩ | ⟨⟨-, hno⟩, -⟩ | ⟨-, -, -, -, h⟩⟩ :=
        hown.compareProgress hinv hrun hcompare hprogress
      · exact absurd (hn.symm.trans hr') nofun
      · exact absurd (hno.symm.trans herr) (by decide)
      · exact h

end Sys2Proof.Machine
end

section
/-! PROOFS. Every outcome allowed of an abandoned strip is possible (R207, R209, R230). -/

namespace Sys2Proof.Machine

/-! ## The draws that leave the elements named with their results (O7, O8) -/

/-- One draw for each lane, from lane j on, whose samples were both read: 1 where the lane is named, else 0. -/
def outcomeDraws (named : Nat → Bool) : Nat → List Lane → List Nat
  | _, [] => []
  | j, l :: ls =>
    (if l.a.isSome && l.b.isSome then [(named j).toNat] else []) ++ outcomeDraws named (j + 1) ls

/-- R209, R230: the elements of the open strip of r whose two samples were read hold their results in t where they are
named, and what they held in the memory m where they are not. -/
def LeftAsNamed (m : Memory) (s : State) (r : Run) (named : Nat → Bool) (t : State) : Prop :=
  ∀ j l, r.lanes[j]? = some l → l.a ≠ none → l.b ≠ none →
    if named j then yNew m r.snap t (s.processed.toNat + j) else yOld m r.snap t (s.processed.toNat + j)

/-- A lane has a result exactly when both its samples were read. -/
theorem Lane.isSome_result (alpha : Sample) (l : Lane) : (l.result alpha).isSome = (l.a.isSome && l.b.isSome) := by
  obtain ⟨a, b, st, old⟩ := l
  cases a <;> cases b <;> rfl

/-! ## One lane -/

/-- What abandoning a lane leaves in its element of y. -/
theorem Lane.readSample_abandon (l : Lane) {m : Memory} (hwf : Memory.wf m) {e : Nat} (he : Memory.holds e = true)
    (v : Sample) (new : Bool) :
    Memory.readSample (l.abandon m e v new) e = if new then v else l.before.getD (Memory.readSample m e) := by
  rcases l.abandon_cases m e v new with ⟨rfl, h⟩ | ⟨rfl, old, hold, h⟩ | ⟨rfl, hnone, h⟩ <;> rw [h]
  · exact Memory.readSample_writeSample m hwf e v he
  · rw [hold]
    exact Memory.readSample_writeSample m hwf e old he
  · rw [hnone]
    rfl

/-- Abandoning a lane leaves every sample apart from its element of y alone. -/
theorem Lane.readSample_abandon_other (l : Lane) {m : Memory} (hwf : Memory.wf m) {e f : Nat}
    (hf : f + 2 ≤ e ∨ e + 2 ≤ f) (v : Sample) (new : Bool) :
    Memory.readSample (l.abandon m e v new) f = Memory.readSample m f := by
  rcases l.abandon_cases m e v new with ⟨-, h⟩ | ⟨-, old, -, h⟩ | ⟨-, -, h⟩ <;> rw [h]
  · exact Memory.readSample_writeSample_other m hwf e f v hf
  · exact Memory.readSample_writeSample_other m hwf e f old hf

/-! ## The strip -/

theorem spillFrom_cons_of_none {k : Snapshot} {l : Lane} (h : l.result k.alpha = none) (p j : Nat) (ls : List Lane)
    (s : State) : spillFrom k p j (l :: ls) s = spillFrom k p (j + 1) ls s := by
  simp only [spillFrom, h]

theorem spillFrom_cons_of_some {k : Snapshot} {l : Lane} {v : Sample} (h : l.result k.alpha = some v) (p j : Nat)
    (ls : List Lane) (s : State) : spillFrom k p j (l :: ls) s = spillFrom k p (j + 1) ls
      { s.afterChoice with mem := l.abandon s.mem (elem k.yAddr (p + j)) v (decide (s.choice % 2 = 1)) } := by
  simp only [spillFrom, h]

/-- Abandoning later lanes leaves an earlier element of y alone. -/
theorem readSample_spillFrom_earlier (k : Snapshot) (p : Nat) (ls : List Lane) (j : Nat) (s : State)
    (hwf : Memory.wf s.mem) (hholds : ∀ i, i < ls.length → Memory.holds (elem k.yAddr (p + (j + 1 + i))) = true) :
    Memory.readSample (spillFrom k p (j + 1) ls s).mem (elem k.yAddr (p + j)) =
      Memory.readSample s.mem (elem k.yAddr (p + j)) := by
  have hout := (spillFrom_leaves k p ls (j + 1) s hwf hholds).1
  apply Memory.readSample_congr <;> apply hout <;> simp only [elem] <;> omega

/-- R209, R230: with the draws of `outcomeDraws` next, abandoning the lanes from element p + j on leaves each element
with a result as it is named: with the result, or as it was before its store. -/
theorem readSample_spillFrom_of_draws (k : Snapshot) (p : Nat) (named : Nat → Bool) (ls : List Lane) (j : Nat)
    (s : State) (hwf : Memory.wf s.mem) (hdraws : s.choices.listed = outcomeDraws named j ls)
    (hholds : ∀ i, i < ls.length → Memory.holds (elem k.yAddr (p + (j + i))) = true) (i : Nat) (l : Lane) (v : Sample)
    (hl : ls[i]? = some l) (hres : l.result k.alpha = some v) :
    Memory.readSample (spillFrom k p j ls s).mem (elem k.yAddr (p + (j + i))) =
      if named (j + i) then v else l.before.getD (Memory.readSample s.mem (elem k.yAddr (p + (j + i)))) := by
  induction ls generalizing i j s with
  | nil => simp at hl
  | cons l₀ ls ih =>
    have hlater : ∀ i, i < ls.length → Memory.holds (elem k.yAddr (p + (j + 1 + i))) = true := fun i hi => by
      rw [Nat.add_right_comm]
      exact hholds (i + 1) (by simpa using hi)
    have hread := l₀.isSome_result k.alpha
    cases hres₀ : l₀.result k.alpha with
    | none =>
      have hnext : s.choices.listed = outcomeDraws named (j + 1) ls := by
        simpa [outcomeDraws, ← hread, hres₀] using hdraws
      rw [spillFrom_cons_of_none hres₀]
      cases i with
      | zero =>
        obtain rfl : l₀ = l := by simpa using hl
        simp [hres₀] at hres
      | succ i =>
        rw [show j + (i + 1) = j + 1 + i by omega]
        exact ih (j + 1) s hwf hnext hlater i (by simpa using hl)
    | some v₀ =>
      have hlisted : s.choices.listed = (named j).toNat :: outcomeDraws named (j + 1) ls := by
        simpa [outcomeDraws, ← hread, hres₀] using hdraws
      have hchoice : decide (s.choice % 2 = 1) = named j := by
        cases hn : named j <;> simp [State.choice, Feed.now, hlisted, hn]
      have hwf' : Memory.wf (l₀.abandon s.mem (elem k.yAddr (p + j)) v₀ (named j)) := l₀.abandon_wf s.mem hwf _ _ _
      rw [spillFrom_cons_of_some hres₀, hchoice]
      cases i with
      | zero =>
        obtain rfl : l₀ = l := by simpa using hl
        obtain rfl : v₀ = v := Option.some.inj (hres₀.symm.trans hres)
        exact (readSample_spillFrom_earlier k p ls j _ hwf' hlater).trans
          (l₀.readSample_abandon hwf (hholds 0 (by simp)) v₀ (named j))
      | succ i =>
        have hlane := ih (j + 1)
          { s.afterChoice with mem := l₀.abandon s.mem (elem k.yAddr (p + j)) v₀ (named j) } hwf'
          (by simp [Feed.advance, hlisted]) hlater i (by simpa using hl)
        rw [l₀.readSample_abandon_other hwf (by simp only [elem]; omega)] at hlane
        rwa [show j + (i + 1) = j + 1 + i by omega]

/-- R209, R230: where an AXPY command is abandoned with the draws of `outcomeDraws` next, its open strip is left as
named. -/
theorem AxpyProgress.leftAsNamed {m : Memory} {s u t : State} {r : Run} {named : Nat → Bool} (h : AxpyProgress m s r)
    (hop : IsAxpy r.snap.op) (hlegal : r.Legal s) (hwf : Memory.wf s.mem) (hmem : u.mem = s.mem)
    (hp : u.processed = s.processed) (hdraws : u.choices.listed = outcomeDraws named 0 r.lanes)
    (ht : t.mem = (u.spill r).mem) : LeftAsNamed m s r named t := by
  intro j l hl ha hb
  have hinside := hlegal.inside hop.isMemory
  have hlane := h.lanes j l hl
  obtain ⟨a, b, hla, hlb, hres⟩ :=
    l.result_isSome r.snap.alpha (Option.isSome_iff_ne_none.mpr ha) (Option.isSome_iff_ne_none.mpr hb)
  have hspill : u.spill r = spillFrom r.snap s.processed.toNat 0 r.lanes u := hp ▸ if_pos hop.writesY
  have hleft := readSample_spillFrom_of_draws r.snap s.processed.toNat named r.lanes 0 u (hmem ▸ hwf) hdraws
    (fun i hi => r.snap.holds_elem hop.isMemory hlegal.checked _ (r.snap.yAddr_mem_bases hop.writesY) _ (by omega))
    j l _ hl hres
  rw [← hspill, ← ht, hmem, Nat.zero_add, hlane.a a hla, hlane.b b hlb] at hleft
  split <;> refine hleft.trans ?_
  · next hn => exact if_pos hn
  · next hn =>
    have hkept := hlegal.kept l (List.mem_of_getElem? hl)
    rw [if_neg hn]
    cases hbefore : l.before with
    | none => exact hlane.unstored (by rw [← hkept, hbefore]; rfl)
    | some old => exact hlane.before old hbefore

/-! ## The ways a strip is abandoned (R207, R230) -/

/-- The draws to come are no part of the invariant. -/
theorem State.Inv.withChoices {s : State} (h : s.Inv) (f : Feed Nat) : { s with choices := f }.Inv :=
  { h with running := fun r hr => (h.running r hr).congr rfl rfl rfl }

/-- R230: the memory after a reset that abandons the command running with r. -/
theorem State.resetUnit_mem {s : State} {r : Run} (hr : s.run = some r) : s.resetUnit.mem = (s.spill r).mem := by
  simp [State.resetUnit, State.abandon, hr]

/-- Settles O32: the draws of `outcomeDraws` are next at a reset; at a failing transaction, after the draw that picks
it. -/
theorem openStripTakesEveryOutcome : Obligations.OpenStripTakesEveryOutcome := by
  intro m s r named hinv hr hop hprogress asNamed
  have hlegal := hinv.running r hr
  refine ⟨fun rest ha => ?_, fun hturn hlive hcoherent hplaced hresponse x hx => ?_⟩
  · refine ⟨_, _, step_event { s with choices := ⟨outcomeDraws named 0 r.lanes, none⟩ } .reset rest ha, ?_⟩
    exact hprogress.leftAsNamed (u := { s with agenda := rest, choices := ⟨outcomeDraws named 0 r.lanes, none⟩ }) hop
      hlegal hinv.memory rfl rfl rfl (State.resetUnit_mem hr)
  · obtain ⟨d, hpick⟩ := exists_pick_of_mem hx
    have hrunning : Running r.snap.op { s with choices := ⟨d :: outcomeDraws named 0 r.lanes, none⟩ } r :=
      ⟨hinv.withChoices _, hturn, hr, rfl, hlive⟩
    refine ⟨_, _, hrunning.exec_of_error hop.isMemoryCommand hpick hcoherent hplaced hresponse,
      State.busError_run _ _ _, ?_, ?_, ?_⟩
    · rw [State.busError_status]
      rfl
    · rw [State.busError_erraddr]
      exact State.toNat_address hop.isMemory hlegal hpick
    · refine hprogress.leftAsNamed hop hlegal hinv.memory ?_ ?_ ?_ (State.busError_mem _ _ _) <;> rfl

end Sys2Proof.Machine
end

section
/-! PROOFS. Reset at any time, and the unit that waits for ever for a response (R230, R231, R252). -/

namespace Sys2Proof.Machine

/-! ## What a reset leaves in memory (R230, R231) -/

/-- R230: a reset that abandons no AXPY command leaves memory as it was. -/
theorem State.resetUnit_mem_of_not_axpy {s : State} (h : ∀ r, s.run = some r → ¬IsAxpy r.snap.op) :
    s.resetUnit.mem = s.mem := by
  cases hr : s.run with
  | none => simp [State.resetUnit, State.abandon, hr]
  | some r =>
    obtain ⟨m, c, d, hspill, -, hkept⟩ := s.spill_frame r
    rw [State.resetUnit_mem hr, hspill]
    exact hkept (Bool.eq_false_iff.mpr fun hw => h r hr (isAxpy_of_writesY hw))

/-- What an abandoned command leaves rests on PROCESSED where it was abandoned. -/
theorem AxpyAbandoned.congr {m : Memory} {s s' t : State} {r : Run} (h : AxpyAbandoned m s r t)
    (hp : s'.processed = s.processed) : AxpyAbandoned m s' r t := by
  obtain ⟨hcompleted, heither, hunread, hahead, houtside⟩ := h
  exact ⟨by rwa [hp], by rwa [hp], by rwa [hp], by rwa [hp], houtside⟩

/-- R230: a reset abandons an AXPY command under way. -/
theorem AxpyProgress.abandoned_by_reset {m : Memory} {s : State} {r : Run} (h : AxpyProgress m s r) (hinv : s.Inv)
    (hr : s.run = some r) (hop : IsAxpy r.snap.op) : AxpyAbandoned m s r s.resetUnit :=
  h.abandoned hop (hinv.running r hr) hinv.memory (State.resetUnit_mem hr)

/-- Settles O31: the step is `State.resetUnit`; its memory by whether an AXPY command is abandoned. -/
theorem resetStep : Obligations.ResetStep := by
  intro s rest hinv ha
  have hkept : (∀ r, s.run = some r → ¬IsAxpy r.snap.op) → { s with agenda := rest }.resetUnit.mem = s.mem :=
    State.resetUnit_mem_of_not_axpy (s := { s with agenda := rest })
  refine ⟨_, step_event s .reset rest ha, rfl, rfl, fun hr => ?_, fun r hr hop => ?_, fun m r hr hop hprogress => ?_⟩
  · exact hkept fun r hr' => absurd (hr.symm.trans hr') nofun
  · exact hkept fun r' hr' => Option.some.inj (hr.symm.trans hr') ▸ hop
  · have hprogress' : AxpyProgress m { s with agenda := rest } r := hprogress.congr rfl rfl
    exact (hprogress'.abandoned_by_reset (hinv.withAgenda rest) hr hop).congr rfl

/-! ## A transaction without a response (R252) -/

/-- R68: with a strip open on a platform that admits its transactions, the own step is what the memory system's response
makes of one of them. -/
theorem Running.exec_respond {op : Instr} {s : State} {r : Run} (hop : IsMemoryCommand op) (h : Running op s r)
    (hopen : r.lanes ≠ []) (hcoherent : s.target.coherent = true) (hplaced : s.Placed) :
    ∃ x, exec op s = .next (s.afterChoice.respond r x) := by
  obtain ⟨hinv, hturn, hrun, rfl, hlive⟩ := h
  have hlegal := hinv.running r hrun
  obtain ⟨x, hpick⟩ := pick_of_unfinished _ _ s.choice (hlegal.unfinished hopen)
  obtain ⟨l, hl, hf⟩ := pick_fits _ _ _ _ hpick
  obtain ⟨hholds, hord⟩ := State.address_in_memory hop.isMemory hlegal.checked (hlegal.inside hop.isMemory)
    (hplaced r hrun) x l hl hf
  refine ⟨x, ?_⟩
  rw [exec_memory_unit hop s r hturn hrun rfl hlive, State.stripStep_open _ _ _ _ hopen,
    State.transact_of_pick hpick hholds, if_neg (by simp [hcoherent]), if_neg (by simp [hord])]

theorem State.respond_of_silent {s : State} (h : s.response = .silent) (r : Run) (x : Xact) :
    s.respond r x = s.afterResponse.hang r := by
  rw [State.respond, h]

/-! ## The stuck unit (R252) -/

/-- R252: a WAIT on a unit that waits for ever is a hang. -/
theorem State.hostWait_of_hung {s : State} {r : Run} (hr : s.run = some r) (hhung : r.hung = true) :
    s.hostWait = .fault .hang := by
  simp [State.hostWait, hr, hhung]

/-- R252: with no event to come, a unit that waits for ever is stuck. -/
theorem step_of_hung_quiet {s : State} {r : Run} (ha : s.agenda = []) (hr : s.run = some r) (hhung : r.hung = true) :
    step s = .fault .stuck := by
  simp [step, ha, State.quiet, hr, hhung]

/-- R252: while the unit waits for ever it takes no own step, so a step is a reset, the host's own store, or leaves the
command as it was. -/
theorem StepOf.of_hung {s t : State} {r : Run} (hinv : s.Inv) (hr : s.run = some r) (hhung : r.hung = true)
    (h : StepOf s t) :
    s.agenda.head? = some .reset ∨ CommandKept s r t ∨
      ∃ e v, s.agenda.head? = some (.memWrite e v) ∧ t.run = s.run := by
  have hbusy := hinv.busy_of_run hr
  cases h with
  | quiet _ hn | idle _ _ hn | waitIdle _ _ hn => exact absurd (hn.symm.trans hr) nofun
  | own _ r' _ _ hr' hlive =>
    cases hr'.symm.trans hr
    exact absurd (hhung.symm.trans hlive) nofun
  | illegal _ _ _ _ _ hb | rejected _ _ _ _ _ _ _ _ hb | accepted _ _ _ _ _ _ hb =>
    exact absurd (hbusy.symm.trans hb) nofun
  | reset _ ha => exact .inl (by rw [ha]; rfl)
  | store e v _ ha => exact .inr (.inr ⟨e, v, by rw [ha]; rfl, rfl⟩)
  | write _ w rest reg =>
    obtain ⟨hmem, hp, hrun⟩ := CommandKept.writeReg (s := { s with agenda := rest }) hr reg w
    exact .inr (.inl ⟨hmem, hp, hrun⟩)
  | read _ rest reg =>
    obtain ⟨hmem, hp, hrun⟩ := CommandKept.readReg (s := { s with agenda := rest }) hr reg
    exact .inr (.inl ⟨hmem, hp, hrun⟩)
  | waitBusy => exact .inr (.inl (.of_run hr (by simp) (by simp) (by simp)))
  | stuck | nop | dropped | irqSample | load => exact .inr (.inl (.of_run hr rfl rfl rfl))

/-- R252: only reset leaves the stuck state, and meanwhile only the host's own store changes memory. -/
theorem StepOf.stays_hung {s t : State} {r : Run} (hinv : s.Inv) (hr : s.run = some r) (hhung : r.hung = true)
    (h : StepOf s t) (hreset : s.agenda.head? ≠ some .reset) :
    (∃ r', t.run = some r' ∧ r'.hung = true) ∧ (t.mem = s.mem ∨ ∃ e v, s.agenda.head? = some (.memWrite e v)) := by
  rcases h.of_hung hinv hr hhung with ha | ⟨hmem, -, seen, raced, hrun⟩ | ⟨e, v, ha, hrun⟩
  · exact absurd ha hreset
  · exact ⟨⟨_, hrun, hhung⟩, .inl hmem⟩
  · exact ⟨⟨r, hrun.trans hr, hhung⟩, .inr ⟨e, v, ha⟩⟩

/-- Settles O44: the silent transaction by `Running.exec_respond`; of the stuck unit, the own step by `exec_hung` and every
other step by `StepOf.stays_hung`. -/
theorem stuckUntilReset : Obligations.StuckUntilReset := by
  refine ⟨fun op s r hop hrunning hopen hcoherent hplaced hsilent => ?_, fun s r hinv hr hhung => ?_⟩
  · obtain ⟨x, hexec⟩ := hrunning.exec_respond hop hopen hcoherent hplaced
    rw [hexec, State.respond_of_silent hsilent]
    rfl
  · exact ⟨hinv.busy_of_run hr,
      fun hturn => exec_hung s r hturn hr hhung _,
      fun rest ha => (step_event s .wait rest ha).trans (State.hostWait_of_hung hr hhung),
      fun ha => step_of_hung_quiet ha hr hhung,
      fun t hstep hreset => (StepOf.of_step hinv hstep).stays_hung hinv hr hhung hreset,
      fun rest ha => ⟨_, step_event s .reset rest ha, rfl⟩⟩

end Sys2Proof.Machine
end

section
/-! PROOFS. The words written out from the opcode map (R92, R94). -/

namespace Sys2Proof

open Machine

/-- R92, R94: the words from 6 up, read as a number, are no command. -/
theorem exists_decode_eq_illegal_of_six_le {w : Word} (h : 6 ≤ w.toNat) : ∃ why, decode w = .illegal why := by
  rw [exists_decode_eq_illegal_iff, cmdwOf_wf_iff]
  exact Nat.not_lt.mpr h

/-- Settles O1: each of the words 0 to 5 is the word of its command, and the six others lie above them. -/
theorem decodeWordsOfTheOpcodeMap : Obligations.DecodeWordsOfTheOpcodeMap := by
  refine ⟨decode_encode .nop, decode_encode .mac, decode_encode .clamp, decode_encode .axpyRef, decode_encode .axpyVec,
    decode_encode .compare, fun w hw => exists_decode_eq_illegal_of_six_le ?_⟩
  fin_cases hw <;> decide

end Sys2Proof
end
